-- ==== Sys2Proof/Word.lean ====
section
/-! DEFINITION. Words of the Pelbrun 432: bytes, register words, raw converter readings, and the
four heads that most of its state comes in. -/

namespace Sys2Proof

/-- One byte of a record or of a tool bus frame. -/
abbrev Byte := BitVec 8

/-- One 32-bit register of the BAR (R168). -/
abbrev Word := BitVec 32

/-- One raw reading of a tine: signed, from -32768 to 32767 (R81). -/
abbrev Raw := BitVec 16

/-- The four heads H0 to H3 (00, Units and conventions). -/
inductive HeadId where
  | h0 | h1 | h2 | h3
deriving DecidableEq, Repr

/-- All heads in ascending number. -/
def HeadId.all : List HeadId := [.h0, .h1, .h2, .h3]

/-- The head's number. -/
def HeadId.toNat : HeadId → Nat
  | .h0 => 0
  | .h1 => 1
  | .h2 => 2
  | .h3 => 3

/-- The head of a number, where there is one. -/
def HeadId.ofNat? : Nat → Option HeadId
  | 0 => some .h0
  | 1 => some .h1
  | 2 => some .h2
  | 3 => some .h3
  | _ => none

/-- The even head of the pair (H0, H1) or (H2, H3) a head belongs to. -/
def HeadId.primary : HeadId → HeadId
  | .h0 => .h0
  | .h1 => .h0
  | .h2 => .h2
  | .h3 => .h2

/-- The odd head of the pair a head belongs to. -/
def HeadId.companion : HeadId → HeadId
  | .h0 => .h1
  | .h1 => .h1
  | .h2 => .h3
  | .h3 => .h3

/-- The even heads name a gang's primary (R123). -/
def HeadId.even (h : HeadId) : Bool := h = h.primary

/-- The head after this one in the round H0, H1, H2, H3, H0 (R104). -/
def HeadId.next : HeadId → HeadId
  | .h0 => .h1
  | .h1 => .h2
  | .h2 => .h3
  | .h3 => .h0

/-- One value for each of four like things: the heads, or the MASK inputs. -/
structure Four (α : Type) where
  a0 : α
  a1 : α
  a2 : α
  a3 : α
deriving DecidableEq, Repr

/-- The same value four times. -/
def Four.all {α : Type} (a : α) : Four α := ⟨a, a, a, a⟩

/-- The value of one of the four. -/
def Four.get {α : Type} (v : Four α) : HeadId → α
  | .h0 => v.a0
  | .h1 => v.a1
  | .h2 => v.a2
  | .h3 => v.a3

/-- The four values with one of them replaced. -/
def Four.set {α : Type} (v : Four α) (h : HeadId) (a : α) : Four α :=
  match h with
  | .h0 => { v with a0 := a }
  | .h1 => { v with a1 := a }
  | .h2 => { v with a2 := a }
  | .h3 => { v with a3 := a }

/-- Every value changed alike. -/
def Four.map {α β : Type} (f : α → β) (v : Four α) : Four β := ⟨f v.a0, f v.a1, f v.a2, f v.a3⟩

/-- Every value changed with one of its own. -/
def Four.zipWith {α β γ : Type} (f : α → β → γ) (v : Four α) (w : Four β) : Four γ :=
  ⟨f v.a0 w.a0, f v.a1 w.a1, f v.a2 w.a2, f v.a3 w.a3⟩

end Sys2Proof
end

