-- ==== Sys2Proof/Config.lean ====
section
/-! DEFINITION. What the handbook leaves open: free values, of which nothing can be proved. -/

namespace Sys2Proof

/-- Free value number `n`. Where the rules leave the order of two things open inside one step (R167 and section
10.4: requests of different blocks made at one moment; R136: two halt causes found together at APPROACH entry;
R31: how much of a replay the evaluator has taken), and for what comes from outside at a sample (the levels of the
pins, R76 and R128), the model asks this constant, and a counter of State makes every value a fresh one (logs 3, 6,
7, 9, 10 and 30). It has no body, so no statement can rest on a value of it. -/
opaque Config.freeChoice : Nat → Nat

end Sys2Proof
end

