-- ==== Sys2Proof/Syntax.lean ====
section
/-! DEFINITION. The commands of the block: one constructor of Instr for each row of
spec/opcode_table.json, with the operands that come from outside the block. -/

namespace Sys2Proof

/-- What one filter sample of the encoder accepted (R76, R77): an edge of line A, of line B, or of both
together, the two-line jump. -/
inductive EncoderEdge where
  | lineA | lineB | both
deriving DecidableEq, Repr

/-- One frame of the tool bus as received: its marker bit and its eight data bits (R100). -/
structure Frame where
  marker : Bool
  data : Byte
deriving DecidableEq, Repr

/-- A part of the exchange header (section 9.5). -/
inductive HeaderPart where
  | device
  | chain
  | live (h : HeadId)
deriving DecidableEq, Repr

/-- A BAR offset at which a write is ignored (R168, R180): IDN, STA, or `n` bytes beyond 0x23. -/
inductive IgnoredTarget where
  | idn
  | sta
  | beyond (n : Nat)
deriving DecidableEq, Repr

/-- Which converters have converted their last tine by the moment of an edge or of a timed scan's tick (R81): the
gang primary's (or the single head's own), and the companion's. The model does not count the 2.5 µs of a
conversion, so this comes from outside with an edge and is a free value at a tick (log 8). -/
structure Converted where
  own : Bool
  companion : Bool
deriving DecidableEq, Repr

/-- The races of one sample (R31, R42, R91): whether the evaluator takes the sample before a halt that
meets it, and whether a PIN_HALT request that is outstanding reaches the head at this sample; in the replay of
contact, whether the evaluator has taken all of it when the halt of such a request reaches it (log 9). -/
structure SampleRace where
  evaluatorFirst : Bool
  requestArrives : Bool
deriving DecidableEq, Repr

/-- The commands. A read completion carries what the read found, or none for a bus error (log 4). -/
inductive Instr where
  -- register window and resets (10, 11)
  | hardwareReset
  | softReset (rest : Word)
  | runWritten1
  | runWritten0
  | abort (run : Bool)
  | abaseLWrite (value : Word)
  | abaseHWrite (value : Word)
  | nudge (value : Word)
  | evtWrite (value : Word)
  | evtenWrite (value : Word)
  | hcmdHalt (h : HeadId)
  | hcmdRelease (h : HeadId)
  | badCommand (head : Byte) (command : Byte)
  | registerWriteIgnored (target : IgnoredTarget) (value : Word)
  -- depth, scans and the stroke (3, 4)
  | acceptedEdge (h : HeadId) (edge : EncoderEdge) (done : Converted)
  | strokeGuardExpire (h : HeadId)
  | timedScanTick (h : HeadId)
  | scanComplete (h : HeadId) (own : List Raw) (companion : List Raw) (race : SampleRace)
  | dwellExpire (h : HeadId)
  -- operator station, safety inputs, gantry and ram lines (7)
  | guardOpen
  | guardClose
  | estopAssert
  | estopRelease
  | startPress (a : Bool) (b : Bool) (mask : BitVec 4)
  | startRelease (a : Bool) (b : Bool)
  | pairWindowExpire
  | posReadyRise (h : HeadId)
  | posReadyFall (h : HeadId)
  | ramTopRise (h : HeadId)
  | ramTopFall (h : HeadId)
  -- tooling (5)
  | toolAttach (h : HeadId)
  | toolRemoval (h : HeadId)
  | toolBusGrant (idle : Nat)
  | toolReply (frames : List Frame)
  | toolReplyTimeout
  | tareComplete (h : HeadId)
  -- run state (10)
  | setupReadDone (data : Option (List Byte))
  | startHeaderWriteDone
  | startingEntry
  | stopComplete
  | faultExit
  | busWriteError
  -- PREPARE and the start (1, 3)
  | takeOrder (h : HeadId)
  | activeWriteDone (h : HeadId)
  | withdrawReadDone (h : HeadId) (value : Option Byte)
  | startWithdrawReadDone (h : HeadId) (value : Option Byte)
  | planReadDone (h : HeadId) (data : Option (List Byte))
  -- board zones (6)
  | claimRequest (h : HeadId)
  | claimGrant (h : HeadId)
  | claimWithdraw (h : HeadId)
  | claimRelease (h : HeadId)
  -- results (9)
  | traceWriteDone (h : HeadId)
  | outcomeWriteDone (h : HeadId)
  -- the order chain (8)
  | linkReadDone (link : Option Word)
  | orderFetchDone (data : Option (List Byte))
  | takeTableReadDone (data : Option (List Byte))
  | heldWithdrawReadDone (value : Option Byte)
  | takenWriteDone
  | rejectWriteDone
  | stopWriteDone
  | headerWriteDone (part : HeaderPart)
  | pollTimerExpire
  | busReadTimeout
  | frameAfterFailedTransaction (frame : Frame)
deriving DecidableEq, Repr

end Sys2Proof
end

