-- ==== Sys2Proof/Decode.lean ====
section
/-! DEFINITION. How words pick commands: the table gives no row any bits, so no word spells a command by it; a
write to the register window picks one by its offset and its bits (sections 10.1 and 11.8). -/

namespace Sys2Proof

/-- The command a word spells by the table's bits: none, for no row of spec/opcode_table.json gives bits
(its `fields` are empty in every row). -/
def decodeTableWord (_ _ : Nat) : Option Instr := none

/-- A write to CTL takes its three bits together: RESET overrides both others, ABORT goes before RUN, and a 0 in
ABORT or RESET does nothing (R168, R180). -/
def commandOfCtl (value : Word) : Instr :=
  if value.getLsbD 2 then .softReset value
  else if value.getLsbD 1 then .abort (value.getLsbD 0)
  else if value.getLsbD 0 then .runWritten1
  else .runWritten0

/-- A write to HCMD: the head number in bits 0 to 7, the command in bits 8 to 15, 1 HALT and 2 RELEASE; any other
number or command refuses the whole write (R169, R180). -/
def commandOfHcmd (value : Word) : Instr :=
  let head := value.extractLsb' 0 8
  let command := value.extractLsb' 8 8
  match HeadId.ofNat? head.toNat with
  | none => .badCommand head command
  | some h =>
    if command = 1 then .hcmdHalt h else if command = 2 then .hcmdRelease h else .badCommand head command

/-- The command that a write of a value to a BAR offset is (R168, R180): by the register, or an ignored write to
IDN, to STA or beyond 0x23. A write at an offset inside a register is no command (the model's choice, log 43). -/
def commandOfWrite (offset : Nat) (value : Word) : Option Instr :=
  if 0x23 < offset then some (.registerWriteIgnored (.beyond (offset - 0x23)) value)
  else
    match offset with
    | 0x00 => some (.registerWriteIgnored .idn value)
    | 0x04 => some (commandOfCtl value)
    | 0x08 => some (.registerWriteIgnored .sta value)
    | 0x0C => some (.abaseLWrite value)
    | 0x10 => some (.abaseHWrite value)
    | 0x14 => some (.nudge value)
    | 0x18 => some (.evtWrite value)
    | 0x1C => some (.evtenWrite value)
    | 0x20 => some (commandOfHcmd value)
    | _ => none

end Sys2Proof
end

