-- ==== Sys2Proof/Machine/State.lean ====
section
/-! DEFINITION. Everything the Pelbrun 432 holds, as plain data, and its value right after reset.
Each field's docstring names the rule of spec/ that gives it. -/

namespace Sys2Proof.Machine

/-! ## Names of the handbook (section 11.6) -/

/-- Device state (R171). -/
inductive DeviceState where
  | stopped | starting | running | stopping | estop | setupErr | fault
deriving DecidableEq, Repr

/-- Chain reader state (R142). -/
inductive ReaderState where
  | stopped | reading | waiting | held | faulted
deriving DecidableEq, Repr

/-- Chain fault reason (R142). -/
inductive ChainFault where
  | none | badLink | turn | memory
deriving DecidableEq, Repr

/-- Head state (section 3.1). -/
inductive HeadState where
  | offline | idle | prepare | zoneWait | startWait | approach | seek | press | dwell | retract
  | halted | recover
deriving DecidableEq, Repr

/-- Tool state (R95). -/
inductive ToolState where
  | absent | identify | ready | fault
deriving DecidableEq, Repr

/-- Outcome of an order (section 11.6). -/
inductive OrderOutcome where
  | pass | fail | refused | rejected | withdrawn | aborted | stopped
deriving DecidableEq, Repr

/-- Reason codes of an outcome and of a head's last halt (section 11.6). -/
inductive Reason where
  | none
  | badHead | badField | badTable | capacity | gangOff
  | toolAbsent | toolFault | toolType | toolWorn | gangMismatch | ramNotTop | plan | memory | channel
  | pin | noSeat | seatRange | noContact
  | overforce | pinHalt | earlyContact | skew | stall | guard | estop | startReleased | positionLost
  | toolLost | haltCmd | abortCmd | fault
  | deviceStop
deriving DecidableEq, Repr

/-- Verdict on a pin (section 2.7). -/
inductive Verdict where
  | pass | noEngage | buckle | high | low | noData | notChecked | unjudged
deriving DecidableEq, Repr

/-- Last refusal code (R72, R169). -/
inductive RefusalCode where
  | none | wrongState | estopActive | guardOpen | atTop | outcomePending | baseLocked | badCommand
deriving DecidableEq, Repr

/-- Reset cause (R178). -/
inductive ResetCause where
  | pin | soft
deriving DecidableEq, Repr

/-- Start mode of an order (R60). -/
inductive StartMode where
  | auto | operator
deriving DecidableEq, Repr

/-- Orientation of the connector (R9). -/
inductive Orientation where
  | normal | turned
deriving DecidableEq, Repr

/-- Seat mode of an order (R64). -/
inductive SeatMode where
  | depth | force | shoulder
deriving DecidableEq, Repr

/-- Direction of the setpoint (R48). -/
inductive Direction where
  | none | down | up
deriving DecidableEq, Repr

/-- Cause of a channel fault (section 4.4). -/
inductive FaultCause where
  | glitch | tare | reversed
deriving DecidableEq, Repr

/-- Health of a channel; a FAULTED channel has one cause (section 4.4). -/
inductive Health where
  | ok | suspect
  | faulted (cause : FaultCause)
deriving DecidableEq, Repr

/-! ## Setup copy, orders, tables -/

/-- The setup copy (R141): the fields of the setup block at the last start whose check passed. -/
structure Setup where
  areaSize : Nat
  directory : Nat
  lead : Nat
  initialTurn : Bool
  headMask : BitVec 4
  gangEnable : BitVec 2
  startMask : BitVec 4
  pollInterval : Nat
  tarePeriod : Nat
  tareAverage : Nat
  glitchLimit : Nat
  contactCount : Nat
  tareOffsetLimit : Nat
  reverseThreshold : Nat
  slewLimit : Nat
  groupSpacing : Nat
  contactReset : Nat
  settleLimit : Nat
  contactThreshold : Int
  gangSkew : Nat
  zoneMargin : Nat
  fullScale : Four Nat
  guardInterval : Four Nat
deriving DecidableEq, Repr

/-- What serves while no setup copy is held: full-scale speed 1000 µm/s and guard interval 1000 ms
(R47), no MASK input selected (R133); the other fields are not used before a start. -/
def Setup.unset : Setup :=
  { areaSize := 0, directory := 0, lead := 0, initialTurn := false, headMask := 0, gangEnable := 0,
    startMask := 0, pollInterval := 0, tarePeriod := 0, tareAverage := 0, glitchLimit := 0,
    contactCount := 0, tareOffsetLimit := 0, reverseThreshold := 0, slewLimit := 0, groupSpacing := 0,
    contactReset := 0, settleLimit := 0, contactThreshold := 0, gangSkew := 0, zoneMargin := 0,
    fullScale := Four.all 1000, guardInterval := Four.all 1000 }

/-- The copy of an order's fields that the chain reader takes with it, every field the host program wrote
except link, status and withdraw (R147; all eight remap entries stand in `remap`), with its record offset, its
pin count, its age on the taken list (`age`: older orders have smaller numbers, log 21), and whether a head has
taken it as its current order (`withHead`, log 12). -/
structure Order where
  age : Nat
  record : Nat
  pinCount : Nat
  withHead : Bool
  turn : Nat
  tag : BitVec 16
  head : HeadId
  ganged : Bool
  startMode : StartMode
  orientation : Orientation
  seatMode : SeatMode
  mapId : Nat
  toolType : BitVec 16
  remapCount : Nat
  remap : List (Nat × Nat)
  zoneFrom : Nat
  zoneTo : Nat
  approachEnd : Int
  seekLimit : Int
  pressLimit : Int
  seatTarget : Int
  seatForce : Int
  shoulderRise : Int
  maxSumForce : Int
  approachSpeed : Nat
  seekSpeed : Nat
  pressSpeed : Nat
  retractSpeed : Nat
  samplePitch : Nat
  dwellTime : Nat
  resultArea : Nat
  resultCapacity : Nat
  traceArea : Nat
  traceCapacity : Nat
deriving DecidableEq, Repr

/-- Header of a pin map (R2). -/
structure MapHeader where
  id : Nat
  pinCount : Nat
  columns : Nat
  rows : Nat
  seatMin : Int
  seatMax : Int
  classDefault : List Nat
deriving DecidableEq, Repr

/-- One pin entry (R3). -/
structure PinEntry where
  row : Nat
  column : Nat
  cls : Nat
  engage : Nat
deriving DecidableEq, Repr

/-- One band of an envelope (R4); `haltAction` is the action HALT, its absence RECORD. -/
structure Band where
  bandFrom : Nat
  bandTo : Nat
  minShare : Int
  maxShare : Int
  haltAction : Bool
deriving DecidableEq, Repr

/-- An envelope (R4). -/
structure Envelope where
  id : Nat
  engageMin : Int
  buckleDrop : Int
  bands : List Band
deriving DecidableEq, Repr

/-! ## Bus interface -/

/-- What a bus-master access is for, and so which block asked for it. -/
inductive Access where
  | setupRead
  | headerAll
  | header (part : HeaderPart)
  | linkRead
  | orderFetch
  | slotRead
  | mapRead
  | heldRead
  | takenWrite
  | rejectWrite
  | stopWrite
  | activeWrite (h : HeadId)
  | withdrawRead (h : HeadId)
  | nudgeRead (h : HeadId)
  | startRead (h : HeadId)
  | planRead (h : HeadId)
  | traceWrite (h : HeadId)
  | outcomeWrite (h : HeadId)
deriving DecidableEq, Repr

/-- What becomes of an access: its completion goes on as its rule says; or the block that asked has
given it up and the result is discarded (R17, R58, R155); or a reset came and even an error is
discarded (R178). -/
inductive Fate where
  | live | dropped | orphaned
deriving DecidableEq, Repr

/-- One request at the bus arbiter: the bus address, the bytes to read (`len`), or the bytes to write
(`data`; those of a header part are filled in at the grant, R165). -/
structure BusReq where
  access : Access
  addr : BitVec 64
  len : Nat
  data : List Byte
  granted : Bool
  fate : Fate
  age : Nat
deriving DecidableEq, Repr

/-- The taken area: the base and area size adopted by the last start whose check passed (R164). -/
structure Area where
  base : BitVec 64
  size : Nat
deriving DecidableEq, Repr

/-! ## Chain reader -/

/-- The read or write the chain reader has in progress (R143 to R148, R155). -/
inductive ReaderOp where
  | none
  | link
  | fetch (record : Nat)
  | slot (order : Order) (withdraw : Bool)
  | mapHeader (order : Order) (withdraw : Bool)
  | heldRead
  | taken (order : Order)
  | rejectFields (record : Nat)
  | rejectDone (record : Nat)
  | stopFields (age : Nat)
  | stopDone (age : Nat)
deriving DecidableEq, Repr

/-- The chain reader (R142). The retire mark is worked out from the list and the anchor (R152). -/
structure Reader where
  state : ReaderState
  anchor : Nat
  expectedTurn : Bool
  heldSlot : Option Order
  taken : List Order
  queues : Four (List Nat)
  completed : BitVec 32
  takenCount : BitVec 32
  poll : Option Nat
  pendingNudge : Bool
  chainFault : ChainFault
  op : ReaderOp
  stopping : Option Reason
  idleRaised : Bool
  nextAge : Nat
deriving DecidableEq, Repr

/-! ## Head sequencer -/

/-- The step PREPARE stands at (R52). Steps 4 and 7 take no time of their own. -/
inductive PrepStep where
  | none | active | withdraw | tools | tare | plan
deriving DecidableEq, Repr

/-- A head's hold on the board as the head knows it (R59, R119). -/
inductive HeadClaim where
  | none | requested | held
deriving DecidableEq, Repr

/-- One result entry (R158). -/
structure ResultEntry where
  index : Nat
  verdict : Verdict
  grouped : Bool
  carryUnsettled : Bool
  channelFault : Bool
  haltedOpen : Bool
  groupSize : Nat
  maxShare : Int
  finalShare : Int
  firstBand : Option Nat
  tine : Nat
  head : HeadId
deriving DecidableEq, Repr

/-- What the pin evaluator hands over at its close (R41, R42, R44, R45). -/
structure HandOver where
  outcome : OrderOutcome
  reason : Reason
  failed : Nat
  notChecked : Nat
  unjudged : Nat
  entries : List ResultEntry
deriving DecidableEq, Repr

/-- The stage of the writes that close an order (R161). -/
inductive CloseStage where
  | traceFlight
  | entry (i : Nat)
  | rows
  | fields
  | done
deriving DecidableEq, Repr

/-- An outcome being written (R57, R66): the order, what was fixed, and how far the writing is. -/
structure Closing where
  order : Order
  result : HandOver
  contactDepth : Int
  seatDepth : Int
  stroke : Bool
  stage : CloseStage
deriving DecidableEq, Repr

/-- One trace row (R162): the sample depth and one force for each tine, or none where missing. -/
structure TraceRow where
  depth : Int
  forces : List (Option Int)
deriving DecidableEq, Repr

/-- The trace of the order being pressed (R162, R163). -/
structure Trace where
  rows : List TraceRow
  inFlight : Nat
  accepted : Nat
  full : Bool
  rowSize : Nat
deriving DecidableEq, Repr

/-- One head sequencer (R47). For a ganged order both heads carry the order and the state; the marks,
the hand-over, the trace and the writing are the primary's (R74). -/
structure Head where
  state : HeadState
  current : Option Order
  gang : Bool
  prep : PrepStep
  outcomeFixed : Bool
  writeFailed : Bool
  contactReached : Bool
  startedByPair : Bool
  lastHalt : Reason
  guardArmed : Bool
  guardCount : Nat
  dwell : Option Nat
  setpoint : BitVec 12
  direction : Direction
  brake : Bool
  atTop : Bool
  startRead : Option Bool
  releaseSeen : Bool
  posLost : Bool
  contactDepth : Option Int
  pressEnd : Option Int
  handed : Option HandOver
  closing : Option Closing
  claim : HeadClaim
  trace : Trace
deriving DecidableEq, Repr

/-! ## Sense front-end -/

/-- One tine channel (R84 to R86). -/
structure Channel where
  offset : Int
  slewRef : Option Int
  glitches : Nat
  health : Health
deriving DecidableEq, Repr

/-- What started a scan (R80, R83): the step trigger; the step trigger since disarmed at press end or at the
seek limit (`late`, log 18); the scan timer in DWELL or for a tare. -/
inductive ScanKind where
  | step | late | dwell | tare
deriving DecidableEq, Repr

/-- A firing or timed tick whose scans have been started and whose sample has not been made (R81, R91):
which converters it started, its sample depth, and whether its readings are to be discarded. -/
structure Firing where
  kind : ScanKind
  depth : Int
  own : Bool
  companion : Bool
  discard : Bool
deriving DecidableEq, Repr

/-- One sample (R91): each tine's force or missing mark, and each channel's health after it. -/
structure Sample where
  depth : Int
  own : List (Option Int)
  companion : List (Option Int)
  ownHealth : List Health
  companionHealth : List Health
  sum : Int
  timed : Bool
deriving DecidableEq, Repr

/-- Contact detection (R92, R93). There is a last qualifying depth while the run count is above 0, as the
table of section 4.8 shows it. -/
structure Contact where
  run : Nat
  candidate : Option Int
  lastQualifying : Option Int
  confirmed : Bool
deriving DecidableEq, Repr

/-- A tare in progress (R112): the sum of each tine's raw readings and the scans taken. -/
structure Tare where
  sums : List Int
  taken : Nat
deriving DecidableEq, Repr

/-- One sense front-end (chapter 4). `pinA` and `pinB` are the encoder lines as the last filter sample found
them; `seenA` and `seenB` say that this sample was a first one to show the level that is not the accepted one
(R76). -/
structure Sense where
  pinA : Bool
  pinB : Bool
  seenA : Bool
  seenB : Bool
  levelA : Bool
  levelB : Bool
  depth : Int
  triggerArmed : Bool
  nextTrigger : Int
  scanning : Bool
  firings : List Firing
  overruns : Nat
  channels : List Channel
  peak : Int
  latest : Int
  contact : Contact
  history : List Sample
  tareValid : Bool
  strokesSinceTare : Nat
  tare : Option Tare
deriving DecidableEq, Repr

/-! ## Pin evaluator -/

/-- What a pin has recorded in its window (R16, R30, R32): its entry index, its class's envelope copy or
none, the sample count of each band, the violations, and its verdict once formed. -/
structure Member where
  entry : Nat
  envelope : Option Nat
  counts : List Nat
  low : Bool
  high : Bool
  buckle : Bool
  firstBand : Option Nat
  verdict : Option Verdict
deriving DecidableEq, Repr

/-- Where a group's window stands (R25, R27). -/
inductive WindowState where
  | unopened | opened | closed
deriving DecidableEq, Repr

/-- One group of a channel (R13, R14) and its window. `present` counts its present samples;
`lastDepth` is the depth of the last sample it holds, absent while it holds none. -/
structure Group where
  engage : Nat
  members : List Member
  window : WindowState
  baseline : Int
  maxShare : Option Int
  finalShare : Option Int
  present : Nat
  lastDepth : Option Int
  carryUnsettled : Bool
  channelFault : Bool
  haltedOpen : Bool
deriving DecidableEq, Repr

/-- One mapped channel of a plan (R11, R16): its groups in ascending engage depth and its last two
present values since the evaluation became live, newest first. -/
structure PlanChannel where
  head : HeadId
  tine : Nat
  groups : List Group
  lastTwo : List Int
deriving DecidableEq, Repr

/-- Evaluation phase (R22). -/
inductive EvalPhase where
  | armed | live | closed
deriving DecidableEq, Repr

/-- A complete pin plan (R16). -/
structure Plan where
  phase : EvalPhase
  contactDepth : Int
  pinCount : Nat
  unjudged : Nat
  seatMin : Int
  seatMax : Int
  envelopes : List Envelope
  channels : List PlanChannel
  asked : Bool
deriving DecidableEq, Repr

/-- Which read of a plan build is awaited (R15): the slot, header or entries of the pin map; the slot,
header or bands of the envelope of a class. -/
inductive BuildStage where
  | slot
  | header (offset : Nat)
  | entries (offset : Nat)
  | envSlot (id : Nat)
  | envHeader (id : Nat) (offset : Nat)
  | envBands (id : Nat) (offset : Nat) (header : List Byte)
deriving DecidableEq, Repr

/-- A plan build in progress (R15): what has been read and chosen so far, and the classes still to be
given an envelope, the one being read first. -/
structure Build where
  stage : BuildStage
  header : Option MapHeader
  entries : List PinEntry
  classes : List Nat
  chosen : List (Nat × Option Nat)
  envelopes : List Envelope
deriving DecidableEq, Repr

/-- Plan state (section 1.7). -/
inductive PlanState where
  | empty
  | loading (build : Build)
  | built (plan : Plan)
deriving DecidableEq, Repr

/-! ## Tool bus controller -/

/-- A block of a tool's memory (R106): the base block, calibration block `i` (tines 4i to 4i+3), or the
wear block. -/
inductive ToolBlock where
  | base
  | cal (i : Nat)
  | wear
deriving DecidableEq, Repr

/-- A head's pending request (R95). -/
inductive ToolRequest where
  | none
  | identify (block : ToolBlock)
  | wearWrite
deriving DecidableEq, Repr

/-- What a wear write carries (R110): the page, the stroke count and the wear limit. -/
structure WearData where
  page : Nat
  strokes : Nat
  limit : Nat
deriving DecidableEq, Repr

/-- A head's tool record, tool state and tool bus bookkeeping (R95, R98, R109, R110). -/
structure Tool where
  state : ToolState
  toolType : BitVec 16
  tines : Nat
  pages : Nat
  gains : List Nat
  limits : List Nat
  strokes : Nat
  wearLimit : Nat
  worn : Bool
  toggle : Bool
  request : ToolRequest
  retries : Nat
  wearData : Option WearData
  wearGranted : Bool
  wearAgain : Bool
  identifyAfter : Bool
deriving DecidableEq, Repr

/-- The transaction on the tool bus (R101): whose it is, what it asks, the frames sent, and whether its
reply will be discarded (R98). -/
structure Transaction where
  head : HeadId
  write : Bool
  page : Nat
  half : Bool
  toggle : Bool
  frames : List Frame
  discard : Bool
deriving DecidableEq, Repr

/-- The shared line: the last granted head (R104), the transaction on it, how long it must have been idle
before the next request and how long it has been idle by the last period of the filter clock, up to 2 ms, both
in µs (R100, R103, R105, log 29). -/
structure ToolBus where
  lastGranted : HeadId
  transaction : Option Transaction
  idleNeeded : Nat
  idle : Nat
deriving DecidableEq, Repr

/-! ## Zone arbiter -/

/-- An entry of the claim table (R114). -/
inductive Claim where
  | empty
  | waiting (low : Nat) (high : Nat) (age : Nat)
  | held (low : Nat) (high : Nat)
deriving DecidableEq, Repr

/-- A message on its way from a head to the zone arbiter (R116, R118, R119). -/
inductive ClaimMsg where
  | request (low : Nat) (high : Nat) (age : Nat)
  | withdraw
  | release
deriving DecidableEq, Repr

/-! ## Operator input unit -/

/-- One input line (R128): the pin's raw level, the debounced level, and the successive samples seen
that differ from it. -/
structure Line where
  raw : Bool
  level : Bool
  count : Nat
deriving DecidableEq, Repr

/-- Two-hand pair (R131): in ONE_DOWN, whether START_B came first, and the window in ms. -/
inductive Pair where
  | ready
  | oneDown (bFirst : Bool) (window : Nat)
  | spent
deriving DecidableEq, Repr

/-- The operator input unit (chapter 7). `masks` holds MASK0 to MASK3. -/
structure Inputs where
  startA : Line
  startB : Line
  guard : Line
  estop : Line
  masks : Four Line
  posReady : Four Line
  ramTop : Four Line
  toolPresent : Four Line
  pair : Pair
deriving DecidableEq, Repr

/-! ## Registers and run control -/

/-- The registers and run control (chapter 10): the endpoint's own configuration, `barBase` and
`msiSelected`, is kept over a soft reset; `msiSent` counts the messages sent. -/
structure Control where
  run : Bool
  device : DeviceState
  lastRefusal : RefusalCode
  setupError : Byte
  resetCause : ResetCause
  abaseL : Word
  abaseH : Word
  evt : BitVec 8
  evten : BitVec 8
  msiSelected : Bool
  msiSent : Nat
  barBase : BitVec 64
  area : Option Area
  setup : Option Setup
  startBase : BitVec 64
  startGivenUp : Bool
  staleRun : Bool
  startEstop : Bool
  aborting : Bool
deriving DecidableEq, Repr

/-- The rewrite marks of the six header parts (R165). -/
structure RewriteMarks where
  device : Bool
  chain : Bool
  live : Four Bool
deriving DecidableEq, Repr

/-! ## The machine -/

/-- Everything the block holds, and the queue of the commands that wait, first in first out.
`stamp` marks the bus requests of one step, `choices` counts the free values used (logs 3, 6, 7, 9 and 10), `micros`
the periods of the filter clock since the last 1 ms tick (log 2). -/
structure State where
  pending : List Instr
  control : Control
  bus : List BusReq
  rewrite : RewriteMarks
  stamp : Nat
  choices : Nat
  micros : Nat
  reader : Reader
  heads : Four Head
  senses : Four Sense
  plans : Four PlanState
  tools : Four Tool
  toolBus : ToolBus
  claims : Four Claim
  claimMsgs : Four (List ClaimMsg)
  grants : Four (Option Nat)
  inputs : Inputs
deriving DecidableEq, Repr

/-! ## Outcomes of a step that are no next state -/

/-- Faults of the model. No meaning raises one: every fault the handbook describes is a state of the
block (device FAULT, chain FAULTED, a halt, a FAULTED channel, a tool in FAULT) and is modelled as a next
state. The one constructor is raised by nobody (safe: nothing stops). -/
inductive Fault where
  /-- Raised by no meaning (safe). -/
  | unused
deriving DecidableEq, Repr

/-- Refusals of the model. -/
inductive Refusal where
  /-- Raised by an arm of exec whose command has no meaning yet, by the row's mnemonic (safe). -/
  | notModelled (mnemonic : String)
deriving DecidableEq, Repr

/-! ## Reset values -/

/-- A line whose pin is at its inactive level (log 5). -/
def Line.inactive : Line := { raw := false, level := false, count := 0 }

/-- The reader after a reset (R142). -/
def Reader.reset : Reader :=
  { state := .stopped, anchor := 0, expectedTurn := false, heldSlot := none, taken := [],
    queues := Four.all [], completed := 0, takenCount := 0, poll := none, pendingNudge := false,
    chainFault := .none, op := .none, stopping := none, idleRaised := false, nextAge := 0 }

/-- An empty trace (R162, R163). -/
def Trace.reset : Trace := { rows := [], inFlight := 0, accepted := 0, full := false, rowSize := 0 }

/-- A head sequencer after a reset (R47); the count of a disarmed stroke guard is the model's choice (log
36). -/
def Head.reset : Head :=
  { state := .offline, current := none, gang := false, prep := .none, outcomeFixed := false,
    writeFailed := false, contactReached := false, startedByPair := false, lastHalt := .none,
    guardArmed := false, guardCount := 0, dwell := none, setpoint := 0, direction := .none, brake := true,
    atTop := false, startRead := none, releaseSeen := false, posLost := false, contactDepth := none,
    pressEnd := none, handed := none, closing := none, claim := .none, trace := Trace.reset }

/-- A channel after a reset (R84, R85, R88). -/
def Channel.reset : Channel := { offset := 0, slewRef := none, glitches := 0, health := .ok }

/-- Contact detection cleared (R92). -/
def Contact.cleared : Contact :=
  { run := 0, candidate := none, lastQualifying := none, confirmed := false }

/-- A sense front-end after a reset and its first filter sample, which found the encoder lines at `pinA` and
`pinB` (R76 to R94, R111, log 6); the next
trigger depth of a disarmed trigger is the model's choice (log 36). -/
def Sense.reset (pinA pinB : Bool) : Sense :=
  { pinA := pinA, pinB := pinB, seenA := false, seenB := false, levelA := pinA, levelB := pinB,
    depth := 0, triggerArmed := false, nextTrigger := 0, scanning := false, firings := [], overruns := 0,
    channels := List.replicate 32 Channel.reset, peak := 0, latest := 0, contact := Contact.cleared,
    history := [], tareValid := false, strokesSinceTare := 0, tare := none }

/-- A tool record and its bookkeeping after a reset (R95). -/
def Tool.reset : Tool :=
  { state := .absent, toolType := 0, tines := 0, pages := 0, gains := [], limits := [], strokes := 0,
    wearLimit := 0, worn := false, toggle := false, request := .none, retries := 0, wearData := none,
    wearGranted := false, wearAgain := false, identifyAfter := false }

/-- The tool bus after a reset: head 0 is served first, and the line must be idle for 2 ms
(R100, R104). -/
def ToolBus.reset : ToolBus := { lastGranted := .h3, transaction := none, idleNeeded := 2000, idle := 0 }

/-- Every input line inactive (log 5), the pair READY (R132). -/
def Inputs.reset : Inputs :=
  { startA := Line.inactive, startB := Line.inactive, guard := Line.inactive, estop := Line.inactive,
    masks := Four.all Line.inactive, posReady := Four.all Line.inactive,
    ramTop := Four.all Line.inactive, toolPresent := Four.all Line.inactive, pair := .ready }

/-- Registers and run control after a hardware reset (R168, R178); the endpoint's configuration at the
values log 23 names. -/
def Control.reset : Control :=
  { run := false, device := .stopped, lastRefusal := .none, setupError := 0, resetCause := .pin,
    abaseL := 0, abaseH := 0, evt := 0, evten := 0, msiSelected := false, msiSent := 0, barBase := 0,
    area := none, setup := none, startBase := 0, startGivenUp := false, staleRun := false,
    startEstop := false, aborting := false }

/-- No rewrite mark set (R165). -/
def RewriteMarks.reset : RewriteMarks := { device := false, chain := false, live := Four.all false }

/-- The machine right after a hardware reset (R178). -/
def State.reset : State :=
  { pending := [], control := Control.reset, bus := [], rewrite := RewriteMarks.reset, stamp := 0,
    choices := 0, micros := 0, reader := Reader.reset, heads := Four.all Head.reset,
    senses := Four.all (Sense.reset false false), plans := Four.all .empty, tools := Four.all Tool.reset,
    toolBus := ToolBus.reset, claims := Four.all .empty, claimMsgs := Four.all [],
    grants := Four.all none, inputs := Inputs.reset }

end Sys2Proof.Machine
end

