-- ==== Sys2Proof/Machine/Codes.lean ====
section
/-! DEFINITION. The codes of section 11.6 and of STA (section 11.8), and the classes of head states the
rules speak of. -/

namespace Sys2Proof.Machine

/-- Device state code (section 11.6). -/
def DeviceState.code : DeviceState → Nat
  | .stopped => 0 | .starting => 1 | .running => 2 | .stopping => 3 | .estop => 4 | .setupErr => 5
  | .fault => 6

/-- Chain reader state code (section 11.6). -/
def ReaderState.code : ReaderState → Nat
  | .stopped => 0 | .reading => 1 | .waiting => 2 | .held => 3 | .faulted => 4

/-- Chain fault reason code (section 11.6). -/
def ChainFault.code : ChainFault → Nat
  | .none => 0 | .badLink => 1 | .turn => 2 | .memory => 3

/-- Head state code (section 11.6). -/
def HeadState.code : HeadState → Nat
  | .offline => 0 | .idle => 1 | .prepare => 2 | .zoneWait => 3 | .startWait => 4 | .approach => 5
  | .seek => 6 | .press => 7 | .dwell => 8 | .retract => 9 | .halted => 10 | .recover => 11

/-- Tool state code of the live block, READY with WORN set apart (section 11.6). -/
def toolStateCode (st : ToolState) (worn : Bool) : Nat :=
  match st with
  | .absent => 0
  | .identify => 1
  | .ready => if worn then 3 else 2
  | .fault => 4

/-- Outcome code (section 11.6). -/
def OrderOutcome.code : OrderOutcome → Nat
  | .pass => 1 | .fail => 2 | .refused => 3 | .rejected => 4 | .withdrawn => 5 | .aborted => 6
  | .stopped => 7

/-- Reason code (section 11.6). -/
def Reason.code : Reason → Nat
  | .none => 0
  | .badHead => 1 | .badField => 2 | .badTable => 3 | .capacity => 4 | .gangOff => 5
  | .toolAbsent => 16 | .toolFault => 17 | .toolType => 18 | .toolWorn => 19 | .gangMismatch => 20
  | .ramNotTop => 21 | .plan => 22 | .memory => 23 | .channel => 24
  | .pin => 32 | .noSeat => 33 | .seatRange => 34 | .noContact => 35
  | .overforce => 48 | .pinHalt => 49 | .earlyContact => 50 | .skew => 51 | .stall => 52 | .guard => 53
  | .estop => 54 | .startReleased => 55 | .positionLost => 56 | .toolLost => 57 | .haltCmd => 58
  | .abortCmd => 59 | .fault => 60
  | .deviceStop => 64

/-- Verdict code (section 11.6). -/
def Verdict.code : Verdict → Nat
  | .pass => 1 | .noEngage => 2 | .buckle => 3 | .high => 4 | .low => 5 | .noData => 6
  | .notChecked => 7 | .unjudged => 8

/-- Last refusal code (section 11.8). -/
def RefusalCode.code : RefusalCode → Nat
  | .none => 0 | .wrongState => 1 | .estopActive => 2 | .guardOpen => 3 | .atTop => 4
  | .outcomePending => 5 | .baseLocked => 6 | .badCommand => 7

/-- Reset cause code (section 11.8). -/
def ResetCause.code : ResetCause → Nat
  | .pin => 1 | .soft => 2

/-- Status codes the 432 writes into an order record (section 11.6, R154). -/
def statusTaken : Byte := 2
/-- Status ACTIVE (section 11.6). -/
def statusActive : Byte := 3
/-- Status DONE (section 11.6). -/
def statusDone : Byte := 4

/-- The motion states APPROACH to RECOVER, HALTED left out (section 3.1, R68). -/
def HeadState.inMotion : HeadState → Bool
  | .approach | .seek | .press | .dwell | .retract | .recover => true
  | .offline | .idle | .prepare | .zoneWait | .startWait | .halted => false

/-- PREPARE, ZONE_WAIT and START_WAIT, the states R58 names. -/
def HeadState.beforeStroke : HeadState → Bool
  | .prepare | .zoneWait | .startWait => true
  | .offline | .idle | .approach | .seek | .press | .dwell | .retract | .halted | .recover => false

/-- APPROACH to RETRACT, the states of a stroke. -/
def HeadState.inStroke : HeadState → Bool
  | .approach | .seek | .press | .dwell | .retract => true
  | .offline | .idle | .prepare | .zoneWait | .startWait | .halted | .recover => false

/-- IDLE and OFFLINE. -/
def HeadState.atRest : HeadState → Bool
  | .offline | .idle => true
  | .prepare | .zoneWait | .startWait | .approach | .seek | .press | .dwell | .retract | .halted
  | .recover => false

/-- Reads of the bus master, by what they are for; the others are writes. -/
def Access.isRead : Access → Bool
  | .setupRead | .linkRead | .orderFetch | .slotRead | .mapRead | .heldRead | .withdrawRead _
  | .nudgeRead _ | .startRead _ | .planRead _ => true
  | .headerAll | .header _ | .takenWrite | .rejectWrite | .stopWrite | .activeWrite _ | .traceWrite _
  | .outcomeWrite _ => false

/-- The blocks that share the one master port (00, Blocks of the controller). -/
inductive Block where
  | runControl
  | reader
  | head (h : HeadId)
deriving DecidableEq, Repr

/-- The block an access belongs to; the live block of a head is its sequencer's (section 9.5). -/
def Access.block : Access → Block
  | .setupRead | .headerAll | .header .device => .runControl
  | .header .chain | .linkRead | .orderFetch | .slotRead | .mapRead | .heldRead | .takenWrite
  | .rejectWrite | .stopWrite => .reader
  | .header (.live h) | .activeWrite h | .withdrawRead h | .nudgeRead h | .startRead h | .planRead h
  | .traceWrite h | .outcomeWrite h => .head h

end Sys2Proof.Machine
end

