-- ==== Sys2Proof/Machine/Flags.lean ====
section
/-! DEFINITION. The events register, its enables and the interrupt (R170), and the last refusal code
(R169). -/

namespace Sys2Proof.Machine

/-- The eight event flags (R170). -/
inductive Event where
  | done | idle | cherr | halt | tool | chwarn | safe | runst
deriving DecidableEq, Repr

/-- A flag's bit in EVT and EVTEN (section 11.8). -/
def Event.mask : Event → BitVec 8
  | .done => 0x01#8
  | .idle => 0x02#8
  | .cherr => 0x04#8
  | .halt => 0x08#8
  | .tool => 0x10#8
  | .chwarn => 0x20#8
  | .safe => 0x40#8
  | .runst => 0x80#8

/-- The interrupt condition: at least one flag is both set and enabled (R170). -/
def Control.condition (c : Control) : Bool := c.evt &&& c.evten ≠ 0

/-- With legacy interrupts the line is asserted while the condition holds (R170). -/
def Control.interruptLine (c : Control) : Bool := !c.msiSelected && c.condition

/-- The message count after a change of flags or enables: one message, with MSI, at each rise of the
condition (R170). -/
def Control.noteRise (before after : Control) : Control :=
  if after.msiSelected && !before.condition && after.condition then
    { after with msiSent := after.msiSent + 1 }
  else after

/-- A cause sets its flag, enabled or not; a flag already set stays set (R170). -/
def Control.raise (c : Control) (e : Event) : Control := c.noteRise { c with evt := c.evt ||| e.mask }

/-- A write to EVT clears the flags written with 1 (R170); unnamed bits clear nothing (R180). -/
def Control.clearEvents (c : Control) (value : Word) : Control :=
  c.noteRise { c with evt := c.evt &&& ~~~(value.setWidth 8) }

/-- A write to EVTEN sets the eight enables; unnamed bits stay 0 (R170, R180). -/
def Control.setEnables (c : Control) (value : Word) : Control :=
  c.noteRise { c with evten := value.setWidth 8 }

/-- An event raised by any block. -/
def raise (e : Event) (s : State) : State := { s with control := s.control.raise e }

/-- Every write to HCMD, ABASE_L or ABASE_H sets the last refusal code (R169). -/
def setRefusal (c : RefusalCode) (s : State) : State :=
  { s with control := { s.control with lastRefusal := c } }

end Sys2Proof.Machine
end

