-- ==== Sys2Proof/Machine/Operands.lean ====
section
/-! DEFINITION. Reading and laying out records: little-endian fields (00, Units and conventions), the
setup block (R141, section 11.2), the order record (R145, section 11.4), pin maps and envelopes
(section 11.3), result entries, trace rows and device fields (sections 11.4, 11.5), and the frames of the
tool bus (section 11.7). -/

namespace Sys2Proof.Machine

/-! ## Fields -/

/-- The byte at an offset of a record. -/
def byteAt (d : List Byte) (i : Nat) : Nat := (d.getD i 0).toNat

/-- Unsigned 16-bit field, little-endian. -/
def u16At (d : List Byte) (i : Nat) : Nat := byteAt d i + 256 * byteAt d (i + 1)

/-- Unsigned 32-bit field, little-endian. -/
def u32At (d : List Byte) (i : Nat) : Nat := u16At d i + 65536 * u16At d (i + 2)

/-- Signed 32-bit field, two's complement. -/
def s32At (d : List Byte) (i : Nat) : Int := (BitVec.ofNat 32 (u32At d i)).toInt

/-- `n` as one byte. -/
def put8 (n : Nat) : List Byte := [BitVec.ofNat 8 n]

/-- `n` as two bytes, little-endian. -/
def put16 (n : Nat) : List Byte := [BitVec.ofNat 8 n, BitVec.ofNat 8 (n / 256)]

/-- `n` as four bytes, little-endian. -/
def put32 (n : Nat) : List Byte := put16 n ++ put16 (n / 65536)

/-- A signed value as four bytes, two's complement, little-endian. -/
def putS32 (i : Int) : List Byte := put32 (BitVec.ofInt 32 i).toNat

/-- Reserved bytes of a span the 432 writes are zero (R179). -/
def zeros (n : Nat) : List Byte := List.replicate n 0

/-- The first check of a list that fails, with what it names. -/
def firstFailing {α : Type} : List (Bool × α) → Option α
  | [] => none
  | (ok, a) :: rest => if ok then firstFailing rest else some a

/-- `lo ≤ n ≤ hi`. -/
def inRange (lo n hi : Nat) : Bool := lo ≤ n && n ≤ hi

/-- An aligned offset at or past `low` with `room` bytes inside an area of `size` bytes (R140). -/
def fits (align low off room size : Nat) : Bool :=
  off % align = 0 && low ≤ off && off + room ≤ size

/-! ## Setup block -/

/-- The fields of the setup block at the offsets of section 11.2; reserved bytes and unused mask bits are
not looked at (R141, R179). -/
def setupFields (d : List Byte) : Setup :=
  { areaSize := u32At d 4
    directory := u32At d 8
    lead := u32At d 12
    initialTurn := byteAt d 2 = 1
    headMask := BitVec.ofNat 4 (byteAt d 3)
    gangEnable := BitVec.ofNat 2 (byteAt d 16)
    startMask := BitVec.ofNat 4 (byteAt d 17)
    pollInterval := byteAt d 18
    tarePeriod := byteAt d 19
    tareAverage := byteAt d 20
    glitchLimit := byteAt d 21
    contactCount := byteAt d 22
    tareOffsetLimit := u16At d 24
    reverseThreshold := u32At d 28
    slewLimit := u32At d 32
    groupSpacing := u16At d 36
    contactReset := u16At d 38
    settleLimit := u32At d 40
    contactThreshold := s32At d 44
    gangSkew := u16At d 48
    zoneMargin := u16At d 50
    fullScale := ⟨u32At d 64, u32At d 72, u32At d 80, u32At d 88⟩
    guardInterval := ⟨u16At d 68, u16At d 76, u16At d 84, u16At d 92⟩ }

/-- The checks of R141 in the order of its table, each with its setup error code (section 11.2). -/
def setupChecks (d : List Byte) : List (Bool × Byte) :=
  let s := setupFields d
  [ (u16At d 0 = 1, 0x02#8),
    (s.areaSize % 65536 = 0 && inRange 65536 s.areaSize 16777216, 0x03#8),
    (fits 64 512 s.directory 512 s.areaSize, 0x04#8),
    (fits 64 512 s.lead 128 s.areaSize, 0x05#8),
    (byteAt d 2 ≤ 1, 0x06#8),
    (inRange 1000 s.fullScale.a0 50000, 0x10#8),
    (inRange 1000 s.fullScale.a1 50000, 0x11#8),
    (inRange 1000 s.fullScale.a2 50000, 0x12#8),
    (inRange 1000 s.fullScale.a3 50000, 0x13#8),
    (inRange 1 s.guardInterval.a0 1000, 0x14#8),
    (inRange 1 s.guardInterval.a1 1000, 0x15#8),
    (inRange 1 s.guardInterval.a2 1000, 0x16#8),
    (inRange 1 s.guardInterval.a3 1000, 0x17#8),
    (s.tarePeriod ≤ 8, 0x20#8),
    (inRange 3 s.tareAverage 10, 0x21#8),
    (inRange 1 s.tareOffsetLimit 32767, 0x22#8),
    (inRange 1 s.reverseThreshold 100000, 0x23#8),
    (1 ≤ s.glitchLimit, 0x24#8),
    (inRange 1 s.slewLimit 1000000, 0x25#8),
    (inRange 20 s.groupSpacing 2000, 0x26#8),
    (s.settleLimit ≤ 100000, 0x27#8),
    (decide (1 ≤ s.contactThreshold) && decide (s.contactThreshold ≤ 2000000), 0x28#8),
    (inRange 1 s.contactCount 15, 0x29#8),
    (inRange 1 s.contactReset 5000, 0x2A#8),
    (inRange 10 s.gangSkew 2000, 0x2B#8),
    (s.zoneMargin ≤ 2000, 0x2C#8) ]

/-- The code kept for a setup block that could not be read (section 11.2). -/
def setupUnreadable : Byte := 0x01#8

/-- What the read of the setup block gives (R141): the code of the first failure, or the setup copy. -/
def checkSetup : Option (List Byte) → Except Byte Setup
  | none => .error setupUnreadable
  | some d =>
    match firstFailing (setupChecks d) with
    | some code => .error code
    | none => .ok (setupFields d)

/-! ## Order record -/

/-- Withdraw field of a record's copy (section 11.4). -/
def recordWithdraw (d : List Byte) : Nat := byteAt d 6

/-- Turn field of a record's copy (section 11.4). -/
def recordTurn (d : List Byte) : Nat := byteAt d 4

/-- Start mode of a code (section 11.6). -/
def startModeOf (n : Nat) : StartMode := if n = 1 then .operator else .auto

/-- Orientation of a code (section 11.6). -/
def orientationOf (n : Nat) : Orientation := if n = 1 then .turned else .normal

/-- Seat mode of a code (section 11.6). -/
def seatModeOf (n : Nat) : SeatMode := if n = 1 then .force else if n = 2 then .shoulder else .depth

/-- Remap entries `j` and on, in record order: class, envelope id (section 11.4). -/
def remapEntries (d : List Byte) : Nat → Nat → List (Nat × Nat)
  | _, 0 => []
  | j, n + 1 => (byteAt d (20 + 2 * j), byteAt d (21 + 2 * j)) :: remapEntries d (j + 1) n

/-- The order's fields at the offsets of section 11.4, for the head found by check 1. The pin count is
that of check 13. -/
def orderFields (d : List Byte) (head : HeadId) (age record : Nat) : Order :=
  { age := age
    record := record
    pinCount := 0
    withHead := false
    turn := recordTurn d
    tag := BitVec.ofNat 16 (u16At d 8)
    head := head
    ganged := byteAt d 11 = 1
    startMode := startModeOf (byteAt d 12)
    orientation := orientationOf (byteAt d 13)
    seatMode := seatModeOf (byteAt d 14)
    mapId := byteAt d 15
    toolType := BitVec.ofNat 16 (u16At d 16)
    remapCount := byteAt d 18
    remap := remapEntries d 0 8
    zoneFrom := u16At d 36
    zoneTo := u16At d 38
    approachEnd := s32At d 40
    seekLimit := s32At d 44
    pressLimit := s32At d 48
    seatTarget := s32At d 52
    seatForce := s32At d 56
    shoulderRise := s32At d 60
    maxSumForce := s32At d 64
    approachSpeed := u16At d 68
    seekSpeed := u16At d 70
    pressSpeed := u16At d 72
    retractSpeed := u16At d 74
    samplePitch := byteAt d 76
    dwellTime := u16At d 78
    resultArea := u32At d 80
    resultCapacity := u16At d 84
    traceArea := u32At d 88
    traceCapacity := u32At d 92 }

/-- The remap entries within the remap count (R7). -/
def Order.classRemap (o : Order) : List (Nat × Nat) := o.remap.take o.remapCount

/-- The heads' enable bits of the setup copy (R50). -/
def Setup.enabled (c : Setup) (h : HeadId) : Bool := c.headMask.getLsbD h.toNat

/-- The gang enable bit of a head's pair (R141). -/
def Setup.gangOn (c : Setup) (h : HeadId) : Bool := c.gangEnable.getLsbD (h.toNat / 2)

/-- Checks 2 to 12 of R145, in order, on an order whose head has passed check 1. -/
def orderChecks (c : Setup) (d : List Byte) (o : Order) : List (Bool × Reason) :=
  [ (byteAt d 11 ≤ 1, .badField),
    (!o.ganged || o.head.even, .badHead),
    (!o.ganged || (c.gangOn o.head && c.enabled o.head.companion), .gangOff),
    (byteAt d 12 ≤ 1 && byteAt d 13 ≤ 1 && byteAt d 14 ≤ 2 && byteAt d 6 ≤ 1, .badField),
    (o.remapCount ≤ 8 && o.classRemap.all (fun e => e.1 ≤ 16 && e.2 ≤ 63), .badField),
    (o.zoneFrom ≤ o.zoneTo, .badField),
    (decide (0 ≤ o.approachEnd) && decide (o.approachEnd ≤ o.seekLimit) &&
      decide (o.seekLimit ≤ o.pressLimit) &&
      (o.seatMode ≠ .depth || decide (o.seatTarget ≤ o.pressLimit)), .badField),
    (inRange 100 o.approachSpeed 50000 && inRange 100 o.seekSpeed 50000 &&
      inRange 100 o.pressSpeed 50000 && inRange 100 o.retractSpeed 50000 &&
      inRange 1 o.samplePitch 64 && o.dwellTime ≤ 2000 && decide (1 ≤ o.maxSumForce) &&
      (o.seatMode ≠ .force || decide (1 ≤ o.seatForce)) &&
      (o.seatMode ≠ .shoulder || decide (1 ≤ o.shoulderRise)), .badField),
    (1 ≤ o.resultCapacity && fits 16 512 o.resultArea (16 * o.resultCapacity) c.areaSize, .badField),
    (o.traceArea = 0 || fits 16 512 o.traceArea o.traceCapacity c.areaSize, .badField),
    (o.mapId ≤ 63, .badField) ]

/-- Checks 1 to 12 of R145 on a fetched record: the reason of the first failure, or the order. -/
def checkOrder (c : Setup) (d : List Byte) (age record : Nat) : Except Reason Order :=
  match HeadId.ofNat? (byteAt d 10) with
  | none => .error .badHead
  | some h =>
    if c.enabled h then
      let o := orderFields d h age record
      match firstFailing (orderChecks c d o) with
      | some r => .error r
      | none => .ok o
    else .error .badHead

/-! ## Pin map and envelope -/

/-- The bytes of a record from an offset on, one at a time. -/
def bytesFrom (d : List Byte) : Nat → Nat → List Nat
  | _, 0 => []
  | i, n + 1 => byteAt d i :: bytesFrom d (i + 1) n

/-- Pin map header at the offsets of section 11.3. -/
def mapHeaderFields (d : List Byte) : MapHeader :=
  { id := byteAt d 0
    pinCount := u16At d 2
    columns := byteAt d 4
    rows := byteAt d 5
    seatMin := s32At d 8
    seatMax := s32At d 12
    classDefault := bytesFrom d 16 16 }

/-- Pin entries `i` and on, laid out one after another from offset 0 of what was read (section 11.3). -/
def pinEntries (d : List Byte) : Nat → Nat → List PinEntry
  | _, 0 => []
  | i, n + 1 =>
    { row := byteAt d (8 * i), column := byteAt d (8 * i + 1), cls := byteAt d (8 * i + 2),
      engage := u32At d (8 * i + 4) } :: pinEntries d (i + 1) n

/-- Bands `b` and on, from offset 0 of what was read (section 11.3). -/
def bandFields (d : List Byte) : Nat → Nat → List Band
  | _, 0 => []
  | b, n + 1 =>
    { bandFrom := u16At d (16 * b), bandTo := u16At d (16 * b + 2), minShare := s32At d (16 * b + 4),
      maxShare := s32At d (16 * b + 8), haltAction := byteAt d (16 * b + 12) = 1 } ::
      bandFields d (b + 1) n

/-- An envelope from its header and its bands (section 11.3). -/
def envelopeFields (header bands : List Byte) : Envelope :=
  { id := byteAt header 0
    engageMin := s32At header 4
    buckleDrop := s32At header 8
    bands := bandFields bands 0 (byteAt header 1) }

/-! ## Records the 432 writes -/

/-- A bit at a place. -/
def bit (b : Bool) (i : Nat) : Nat := if b then 2 ^ i else 0

/-- Result entry (R158, section 11.5). -/
def ResultEntry.bytes (e : ResultEntry) : List Byte :=
  put8 e.verdict.code ++
  put8 (bit e.grouped 0 + bit e.carryUnsettled 1 + bit e.channelFault 2 + bit e.haltedOpen 3) ++
  put16 e.groupSize ++ putS32 e.maxShare ++ putS32 e.finalShare ++
  put8 (e.firstBand.getD 255) ++ put8 e.tine ++ put8 e.head.toNat ++ zeros 1

/-- A missing value in a trace row (R162). -/
def missingForce : Int := -2147483648

/-- Trace row (R162, section 11.5). -/
def TraceRow.bytes (r : TraceRow) : List Byte :=
  putS32 r.depth ++ (r.forces.map (fun f => putS32 (f.getD missingForce))).flatten

/-- The device fields of an order record, bytes 96 to 127 (R160, section 11.4). -/
structure DeviceFields where
  outcome : OrderOutcome
  reason : Reason
  traceFull : Bool
  withdrawSeen : Bool
  resultsWritten : Bool
  failed : Nat
  notChecked : Nat
  unjudged : Nat
  overruns : Nat
  contactDepth : Int
  seatDepth : Int
  peak : Int
  traceBytes : Nat
deriving DecidableEq, Repr

/-- The device fields of an order that wrote no result (R146, R57): only outcome, reason and
WITHDRAW_SEEN, which goes with WITHDRAWN alone. -/
def DeviceFields.bare (outcome : OrderOutcome) (reason : Reason) : DeviceFields :=
  { outcome := outcome, reason := reason, traceFull := false, withdrawSeen := outcome = .withdrawn,
    resultsWritten := false, failed := 0, notChecked := 0, unjudged := 0, overruns := 0,
    contactDepth := 0, seatDepth := 0, peak := 0, traceBytes := 0 }

/-- The device fields laid out (section 11.4). -/
def DeviceFields.bytes (f : DeviceFields) : List Byte :=
  put8 f.outcome.code ++ put8 f.reason.code ++
  put8 (bit f.traceFull 0 + bit f.withdrawSeen 1 + bit f.resultsWritten 2) ++ zeros 1 ++
  put16 f.failed ++ put16 f.notChecked ++ put16 f.unjudged ++ put16 f.overruns ++
  putS32 f.contactDepth ++ putS32 f.seatDepth ++ putS32 f.peak ++ put32 f.traceBytes ++ zeros 4

/-! ## Tool bus frames -/

/-- The address frame's select code of a head's tool (R100). -/
def selectCode (h : HeadId) : Byte := BitVec.ofNat 8 (0x40 + h.toNat)

/-- Command codes (section 11.7). -/
def commandRead : Byte := 0x01#8
/-- WRITE (section 11.7). -/
def commandWrite : Byte := 0x02#8

/-- Page frame: page, half, toggle (section 11.7). -/
def pageByte (page : Nat) (half toggle : Bool) : Byte :=
  BitVec.ofNat 8 (page % 8 + bit half 3 + bit toggle 7)

/-- The eight-bit sum of the data bits of frames (R102). -/
def frameSum (fs : List Frame) : Byte := fs.foldl (fun a f => a + f.data) 0

/-- A marker-0 frame. -/
def dataFrame (b : Byte) : Frame := { marker := false, data := b }

/-- The wear block of a write: stroke count, wear limit, zeros (R110, section 11.7). -/
def wearBlock (w : WearData) : List Byte := put32 w.strokes ++ put32 w.limit ++ zeros 8

/-- The frames of a READ request (R101). -/
def readRequest (h : HeadId) (page : Nat) (half toggle : Bool) : List Frame :=
  [{ marker := true, data := selectCode h }, dataFrame commandRead, dataFrame (pageByte page half toggle)]

/-- The frames of a WRITE request, the check frame making the sum over all of them 0 (R101, R102). -/
def writeRequest (h : HeadId) (page : Nat) (half toggle : Bool) (block : List Byte) : List Frame :=
  let fs := { marker := true, data := selectCode h } :: dataFrame commandWrite ::
    dataFrame (pageByte page half toggle) :: block.map dataFrame
  fs ++ [dataFrame (0 - frameSum fs)]

/-- Header of a reply: echoed page (section 11.7). -/
def replyPage (hd : Byte) : Nat := hd.toNat % 8
/-- Echoed half. -/
def replyHalf (hd : Byte) : Bool := hd.getLsbD 3
/-- MORE flag. -/
def replyMore (hd : Byte) : Bool := hd.getLsbD 4
/-- COMPLY flag. -/
def replyComply (hd : Byte) : Bool := hd.getLsbD 5
/-- ACK flag. -/
def replyAck (hd : Byte) : Bool := hd.getLsbD 6
/-- Echoed toggle. -/
def replyToggle (hd : Byte) : Bool := hd.getLsbD 7

end Sys2Proof.Machine
end

