-- ==== Sys2Proof/Machine/Ops.lean ====
section
/-! DEFINITION. The named operations the blocks share: reaching one head's state, the bus arbiter (R15,
R58, R155, R178), the exchange header (section 9.5), changes of device state, reader state and head state,
the input lines, and what the pins show. -/

namespace Sys2Proof.Machine

/-! ## Reaching the parts of State -/

/-- The sequencer of a head. -/
def State.head (s : State) (h : HeadId) : Head := s.heads.get h
/-- The sense front-end of a head. -/
def State.sense (s : State) (h : HeadId) : Sense := s.senses.get h
/-- The pin plan of a head's evaluator. -/
def State.plan (s : State) (h : HeadId) : PlanState := s.plans.get h
/-- The tool record of a head. -/
def State.tool (s : State) (h : HeadId) : Tool := s.tools.get h

/-- Change one head's sequencer. -/
def modHead (h : HeadId) (f : Head → Head) (s : State) : State :=
  { s with heads := s.heads.set h (f (s.heads.get h)) }
/-- Change one head's sense front-end. -/
def modSense (h : HeadId) (f : Sense → Sense) (s : State) : State :=
  { s with senses := s.senses.set h (f (s.senses.get h)) }
/-- Change one head's pin plan. -/
def setPlan (h : HeadId) (p : PlanState) (s : State) : State := { s with plans := s.plans.set h p }
/-- Change one head's tool record. -/
def modTool (h : HeadId) (f : Tool → Tool) (s : State) : State :=
  { s with tools := s.tools.set h (f (s.tools.get h)) }
/-- Change run control and the registers. -/
def modControl (f : Control → Control) (s : State) : State := { s with control := f s.control }
/-- Change the chain reader. -/
def modReader (f : Reader → Reader) (s : State) : State := { s with reader := f s.reader }
/-- Change the operator input unit. -/
def modInputs (f : Inputs → Inputs) (s : State) : State := { s with inputs := f s.inputs }

/-- An operation made for each head of a list in turn. -/
def eachHead (f : HeadId → State → State) : List HeadId → State → State
  | [], s => s
  | h :: hs, s => eachHead f hs (f h s)

/-- The setup copy, or what serves while none is held (R47). -/
def State.setup (s : State) : Setup := s.control.setup.getD Setup.unset

/-- The head whose sequencer runs a head's order: the primary, for half of a gang (R74). -/
def State.lead (s : State) (h : HeadId) : HeadId := if (s.head h).gang then h.primary else h

/-- The heads that make a head's transitions together: both of a gang (R74), else the head alone. -/
def State.unit (s : State) (h : HeadId) : List HeadId :=
  if (s.head h).gang then [h.primary, h.companion] else [h]

/-- A head that runs its own unit: not the companion of a gang. -/
def State.leads (s : State) (h : HeadId) : Bool := s.lead h = h

/-- Debounced GUARD shows open (R129). -/
def State.guardOpen (s : State) : Bool := s.inputs.guard.level
/-- Debounced ESTOP shows active (R129). -/
def State.estopActive (s : State) : Bool := s.inputs.estop.level
/-- Debounced RAM_TOP of a head. -/
def State.ramTop (s : State) (h : HeadId) : Bool := (s.inputs.ramTop.get h).level
/-- Debounced POS_READY of a head. -/
def State.posReady (s : State) (h : HeadId) : Bool := (s.inputs.posReady.get h).level
/-- Debounced TOOL_PRESENT of a head. -/
def State.toolPresent (s : State) (h : HeadId) : Bool := (s.inputs.toolPresent.get h).level

/-- HEAD_BUSY (R49): asserted in a motion state, in HALTED, and whenever RAM_TOP is not asserted. -/
def State.headBusy (s : State) (h : HeadId) : Bool :=
  (s.head h).state.inMotion || (s.head h).state = .halted || !s.ramTop h

/-- A line whose debounced level has taken effect (R130): its raw level is that level, no sample
differs (log 30). -/
def Line.settle (level : Bool) : Line := { raw := level, level := level, count := 0 }

/-- A line told its debounced level together with others: one whose level is that already goes on with its own
samples, for the lines are filtered apart (R128). -/
def Line.take (level : Bool) (l : Line) : Line := if l.level = level then l else Line.settle level

/-! ## What the pins show

The pins are driven from outside: at every sample, the first after a reset among them, they stand at levels of
which nothing is said (logs 5 to 7 and 30). The bits of one free value give the levels of one sample. -/

/-- Levels, one for each head, from bit `i` of a free value on. -/
def bitsFrom (free i : Nat) : Four Bool :=
  ⟨free.testBit i, free.testBit (i + 1), free.testBit (i + 2), free.testBit (i + 3)⟩

/-! ## The bus arbiter -/

/-- A request joins the arbiter's list at the end (R15: oldest request first). -/
def request (a : Access) (addr : BitVec 64) (len : Nat) (data : List Byte) (s : State) : State :=
  { s with bus := s.bus ++ [(
      { access := a, addr := addr, len := len, data := data, granted := false,
                              fate := .live, age := s.stamp } : BusReq)] }

/-- Bus address of an offset of the exchange area. -/
def State.busAddr (s : State) (offset : Nat) : BitVec 64 :=
  (match s.control.area with
    | none => 0
    | some a => a.base) + BitVec.ofNat 64 offset

/-- A read of `len` bytes at an offset of the exchange area. -/
def requestRead (a : Access) (offset len : Nat) (s : State) : State :=
  request a (s.busAddr offset) len [] s

/-- A write at an offset of the exchange area. -/
def requestWrite (a : Access) (offset : Nat) (data : List Byte) (s : State) : State :=
  request a (s.busAddr offset) data.length data s

/-- Requests given up: those still waiting are withdrawn, the one granted completes at the bus and its
result is discarded (R17, R58, R155). -/
def dropRequests (mine : Access → Bool) (s : State) : State :=
  let kept := s.bus.filter (fun r => !mine r.access || r.granted)
  { s with
    bus := kept.map (fun r => if mine r.access && r.fate = .live then { r with fate := .dropped } else r) }

/-- What a reset leaves of the bus: an access already granted completes and its result, errors
included, is discarded; no other is made (R178). -/
def orphanBus (bus : List BusReq) : List BusReq :=
  (bus.filter (·.granted)).map (fun r => { r with fate := .orphaned })

/-- The completion of the access in flight, when it is one for `a`: it leaves the bus, and `k` goes on,
unless its result is discarded. A completion that no access in flight answers to has no effect (log 1). -/
def onComplete (a : Access) (k : State → State) (s : State) : State :=
  match s.bus with
  | [] => s
  | r :: rest =>
    if r.granted && r.access = a then
      if r.fate = .live then k { s with bus := rest } else { s with bus := rest }
    else s

/-! ## The exchange header (sections 9.5 and 11.1) -/

/-- The retire mark (R152). -/
def Reader.retireMark (r : Reader) : Nat :=
  match r.taken with
  | [] => r.anchor
  | o :: _ => o.record

/-- Device part, bytes 0 to 15. -/
def State.devicePart (s : State) : List Byte := put8 s.control.device.code ++ zeros 15

/-- Chain part, bytes 16 to 47. -/
def State.chainPart (s : State) : List Byte :=
  put8 s.reader.state.code ++ put8 s.reader.chainFault.code ++ zeros 2 ++ put32 s.reader.anchor ++
  put32 s.reader.retireMark ++ put32 s.reader.completed.toNat ++ put32 s.reader.takenCount.toNat ++
  zeros 12

/-- The last halt reason a live block shows: the primary's, for half of a gang (R166). -/
def State.shownHalt (s : State) (h : HeadId) : Reason := (s.head (s.lead h)).lastHalt

/-- The order tag a live block shows: that of the current order, or 0 (R166). -/
def Head.shownTag (x : Head) : Nat :=
  match x.current with
  | none => 0
  | some o => o.tag.toNat

/-- The sum force a live block shows: 0 for the companion of a gang (R166). -/
def State.shownForce (s : State) (h : HeadId) : Int := if s.leads h then (s.sense h).latest else 0

/-- Live block of a head, 32 bytes (R166). R106 keeps identification's progress from being shown while R166
shows the type the record holds: a block that another cause has rewritten in IDENTIFY follows R166 (log 37). -/
def State.livePart (s : State) (h : HeadId) : List Byte :=
  put8 (s.head h).state.code ++ put8 (s.shownHalt h).code ++
  put8 (toolStateCode (s.tool h).state (s.tool h).worn) ++ zeros 1 ++
  put16 (s.head h).shownTag ++ put16 (s.tool h).toolType.toNat ++
  putS32 (s.sense h).depth ++ putS32 (s.shownForce h) ++ put32 (s.tool h).strokes ++ zeros 12

/-- Offset of a header part (section 11.1). -/
def partOffset : HeaderPart → Nat
  | .device => 0
  | .chain => 16
  | .live h => 128 + 32 * h.toNat

/-- The bytes of a header part as they stand. -/
def State.partBytes (s : State) : HeaderPart → List Byte
  | .device => s.devicePart
  | .chain => s.chainPart
  | .live h => s.livePart h

/-- The whole header, 256 bytes (R164). -/
def State.headerBytes (s : State) : List Byte :=
  s.devicePart ++ s.chainPart ++ zeros 80 ++ s.livePart .h0 ++ s.livePart .h1 ++ s.livePart .h2 ++
  s.livePart .h3

/-- Set or clear the rewrite mark of a part. -/
def RewriteMarks.put (m : RewriteMarks) (p : HeaderPart) (b : Bool) : RewriteMarks :=
  match p with
  | .device => { m with device := b }
  | .chain => { m with chain := b }
  | .live h => { m with live := m.live.set h b }

/-- The rewrite mark of a part. -/
def RewriteMarks.marked (m : RewriteMarks) : HeaderPart → Bool
  | .device => m.device
  | .chain => m.chain
  | .live h => m.live.get h

/-- A request for a part's write (R165). Its values are taken at the grant. -/
def requestPartNow (p : HeaderPart) (s : State) : State :=
  requestWrite (.header p) (partOffset p) [] s

/-- A cause for rewriting a part of the header (R165): no write without a taken area (R164); one is
requested when none is outstanding; one that waits serves; one in flight gets the rewrite mark. The whole-header
write of a start is not taken for the outstanding write of any part (the model's choice, log 50). -/
def requestPart (p : HeaderPart) (s : State) : State :=
  match s.control.area with
  | none => s
  | some _ =>
    match s.bus.find? (fun r => r.access = .header p && r.fate = .live) with
    | none => requestPartNow p s
    | some r => if r.granted then { s with rewrite := s.rewrite.put p true } else s

/-! ## Granting (log 3) -/

/-- Places, in the arbiter's list, of the requests that may be granted next: of the oldest age, the
first of each block. -/
def eligible (age : Nat) : Nat → List Block → List BusReq → List Nat
  | _, _, [] => []
  | i, seen, r :: rest =>
    if r.age = age ∧ r.access.block ∉ seen then
      i :: eligible age (i + 1) (r.access.block :: seen) rest
    else eligible age (i + 1) seen rest

/-- A request as granted: header writes take their values now (R165). -/
def State.grantOf (s : State) (r : BusReq) : BusReq :=
  match r.access with
  | .header p => { r with granted := true, data := s.partBytes p, len := (s.partBytes p).length }
  | .headerAll => { r with granted := true, data := s.headerBytes, len := s.headerBytes.length }
  | _ => { r with granted := true }

/-- The request at place `i` granted and put in flight. -/
def State.grantAt (s : State) (i : Nat) : State :=
  match s.bus[i]? with
  | none => s
  | some r => { s with bus := s.grantOf r :: s.bus.eraseIdx i }

/-- When no access is in flight, the oldest request is granted; among requests of one moment made by
different blocks the choice is free (R167, section 10.4). -/
def grantNext (s : State) : State :=
  match s.bus with
  | [] => s
  | r :: _ =>
    if r.granted then s
    else
      match eligible r.age 0 [] s.bus with
      | [] => s
      | [i] => s.grantAt i
      | i :: j :: more =>
        let all := i :: j :: more
        let t := s.grantAt (all.getD (Config.freeChoice s.choices % all.length) i)
        { t with choices := s.choices + 1 }

/-- The end of every command: the arbiter grants, and the moment has passed. -/
def finish (s : State) : Host.Outcome State Fault Refusal :=
  .next { grantNext s with stamp := s.stamp + 1 }

/-! ## Changes that are shown -/

/-- A change of device state raises RUNST and rewrites the device part (R171). -/
def setDevice (d : DeviceState) (s : State) : State :=
  if s.control.device = d then s
  else
    requestPart .device (raise .runst (modControl (fun c => { c with device := d }) s))

/-- A change of the chain reader that its header part shows (R165). -/
def changeReader (f : Reader → Reader) (s : State) : State := requestPart .chain (modReader f s)

/-- A head's state shown in its live block, rewritten when it changes (R165). -/
def putState (st : HeadState) (h : HeadId) (s : State) : State :=
  if (s.head h).state = st then s
  else requestPart (.live h) (modHead h (fun x => { x with state := st }) s)

/-- A head's last halt reason, rewritten when it changes (R165). -/
def putHaltReason (r : Reason) (h : HeadId) (s : State) : State :=
  if (s.head h).lastHalt = r then s
  else requestPart (.live h) (modHead h (fun x => { x with lastHalt := r }) s)

/-- A message on its way to the zone arbiter. -/
def sendClaim (h : HeadId) (m : ClaimMsg) (s : State) : State :=
  { s with claimMsgs := s.claimMsgs.set h (s.claimMsgs.get h ++ [m]) }

end Sys2Proof.Machine
end

