-- ==== Sys2Proof/Machine/PlanBuild.lean ====
section
/-! DEFINITION. Building the pin plan (chapter 1): what each read of a build is checked for, which read
comes next, and the groups the pins are cut into. -/

namespace Sys2Proof.Machine

/-! ## Checks of what is read -/

/-- A directory slot's value checked before the table is read (R1): not absent, aligned, and with room
for the table's header. -/
def checkSlot (area room value : Nat) : Option Nat :=
  if value ≠ 0 ∧ fits 64 0 value room area then some value else none

/-- An entry of the class default table: 0 to 63, or 255 (R2). -/
def validDefault (n : Nat) : Bool := n ≤ 63 || n = 255

/-- The pin map header's fields (R2), the room for its entries (R1) and the order's capacity (R2). -/
def checkMapHeader (area : Nat) (o : Order) (off : Nat) (d : List Byte) : Option MapHeader :=
  let m := mapHeaderFields d
  if m.id = o.mapId && inRange 1 m.pinCount 1024 && inRange 1 m.columns 64 && inRange 1 m.rows 64 &&
      decide (m.seatMin ≤ m.seatMax) && m.classDefault.all validDefault &&
      decide (off + 32 + 8 * m.pinCount ≤ area) && decide (m.pinCount ≤ o.resultCapacity) then some m
  else none

/-- One pin entry's fields (R3). -/
def PinEntry.valid (m : MapHeader) (e : PinEntry) : Bool :=
  e.row ≤ 63 && e.row < m.rows && e.column ≤ 63 && e.column < m.columns && e.cls ≤ 15 && e.engage ≤ 20000

/-- Two entries share a position (R3). -/
def sharePosition : List PinEntry → Bool
  | [] => false
  | e :: rest => rest.any (fun x => x.row = e.row && x.column = e.column) || sharePosition rest

/-- The pin entries read and checked (R3). -/
def checkEntries (m : MapHeader) (d : List Byte) : Option (List PinEntry) :=
  let es := pinEntries d 0 m.pinCount
  if es.all (·.valid m) && !sharePosition es then some es else none

/-- The envelope header's fields and the room for its bands (R1, R4). -/
def checkEnvelopeHeader (area id off : Nat) (d : List Byte) : Bool :=
  byteAt d 0 = id && inRange 1 (byteAt d 1) 8 && decide (0 ≤ s32At d 4) && decide (0 ≤ s32At d 8) &&
    decide (off + 16 + 16 * byteAt d 1 ≤ area)

/-- One band's fields (R4). -/
def Band.valid (b : Band) : Bool := b.bandFrom < b.bandTo && decide (b.minShare ≤ b.maxShare)

/-- The action bytes of the bands: RECORD or HALT (R4, R179). -/
def actionsValid (d : List Byte) : Nat → Nat → Bool
  | _, 0 => true
  | b, n + 1 => byteAt d (16 * b + 12) ≤ 1 && actionsValid d (b + 1) n

/-- The envelope read whole and checked (R4). -/
def checkEnvelope (header bands : List Byte) : Option Envelope :=
  let e := envelopeFields header bands
  if e.bands.all (·.valid) && actionsValid bands 0 e.bands.length then some e else none

/-! ## Choosing envelopes (section 1.4) -/

/-- The first remap entry within the count that names a class (R7). -/
def remapFor (remap : List (Nat × Nat)) (cls : Nat) : Option Nat :=
  (remap.find? (fun e => e.1 = cls)).map (·.2)

/-- The envelope id chosen for a class: its remap entry, the entry for class 16, the class default table,
where 255 means none (R5, R6). -/
def chooseEnvelope (remap : List (Nat × Nat)) (m : MapHeader) (cls : Nat) : Option Nat :=
  match remapFor remap cls with
  | some id => some id
  | none =>
    match remapFor remap 16 with
    | some id => some id
    | none =>
      let id := m.classDefault.getD cls 255
      if id = 255 then none else some id

/-- The classes that occur among the pins, ascending (R5). -/
def classesUsed (es : List PinEntry) : List Nat :=
  (List.range 16).filter (fun c => es.any (fun e => e.cls = c))

/-- What the choosing comes to (R5, R8): every class has its envelope, or one must be read first, or the
plan already holds 16 copies. -/
inductive Choice where
  | complete (chosen : List (Nat × Option Nat))
  | need (id : Nat) (classes : List Nat) (chosen : List (Nat × Option Nat))
  | tooMany
deriving DecidableEq, Repr

/-- The choosing goes on through the classes left, in ascending order, until an envelope not yet in the
plan is needed (R5, R8). -/
def chooseAll (remap : List (Nat × Nat)) (m : MapHeader) (envs : List Envelope) :
    List Nat → List (Nat × Option Nat) → Choice
  | [], chosen => .complete chosen
  | c :: cs, chosen =>
    match chooseEnvelope remap m c with
    | none => chooseAll remap m envs cs (chosen ++ [(c, none)])
    | some id =>
      match envs.findIdx? (fun e => e.id = id) with
      | some i => chooseAll remap m envs cs (chosen ++ [(c, some i)])
      | none => if 16 ≤ envs.length then .tooMany else .need id (c :: cs) chosen

/-! ## Placing and grouping (sections 1.5, 1.6) -/

/-- The logical column of a pin column under the order's orientation (R9). -/
def logicalColumn (orientation : Orientation) (columns column : Nat) : Nat :=
  match orientation with
  | .normal => column
  | .turned => columns - 1 - column

/-- The channel a logical column is placed on, or none beyond the tools (R10 to R12). -/
def placeColumn (o : Order) (t0 t1 : Nat) (l : Nat) : Option (HeadId × Nat) :=
  if l < t0 then some (o.head, l)
  else if o.ganged && decide (l - t0 < t1) then some (o.head.companion, l - t0)
  else none

/-- A pin placed on its channel, with its envelope copy or none. -/
structure PlacedPin where
  entry : Nat
  engage : Nat
  head : HeadId
  tine : Nat
  envelope : Option Nat
deriving DecidableEq, Repr

/-- The envelope copy chosen for a class. -/
def chosenFor (chosen : List (Nat × Option Nat)) (cls : Nat) : Option Nat :=
  ((chosen.find? (fun e => e.1 = cls)).map (·.2)).getD none

/-- Every pin placed, or none when one is mapped beyond the tools (R12). -/
def placePins (o : Order) (m : MapHeader) (t0 t1 : Nat) (chosen : List (Nat × Option Nat)) :
    Nat → List PinEntry → Option (List PlacedPin)
  | _, [] => some []
  | i, e :: es =>
    match placeColumn o t0 t1 (logicalColumn o.orientation m.columns e.column),
        placePins o m t0 t1 chosen (i + 1) es with
    | some (h, t), some rest =>
      some ({ entry := i, engage := e.engage, head := h, tine := t,
              envelope := chosenFor chosen e.cls } :: rest)
    | _, _ => none

/-- A pin put in its place by engage depth, equal depths by entry index (R13). -/
def insertPin (p : PlacedPin) : List PlacedPin → List PlacedPin
  | [] => [p]
  | x :: xs =>
    if p.engage < x.engage ∨ (p.engage = x.engage ∧ p.entry ≤ x.entry) then p :: x :: xs
    else x :: insertPin p xs

/-- The sorted pins of a channel cut into groups (R13): `start` is the engage depth of the group being
filled and `filling` its pins, last first. -/
def cutGroups (spacing start : Nat) (filling : List PlacedPin) : List PlacedPin → List (List PlacedPin)
  | [] => if filling.isEmpty then [] else [filling.reverse]
  | p :: ps =>
    if filling.isEmpty then cutGroups spacing p.engage [p] ps
    else if p.engage < start + spacing then cutGroups spacing start (p :: filling) ps
    else filling.reverse :: cutGroups spacing p.engage [p] ps

/-- A member pin at its start (R16). -/
def PlacedPin.member (envs : List Envelope) (p : PlacedPin) : Member :=
  { entry := p.entry
    envelope := p.envelope
    counts := match p.envelope.bind (envs[·]?) with
      | none => []
      | some e => List.replicate e.bands.length 0
    low := false, high := false, buckle := false, firstBand := none, verdict := none }

/-- A group at its start, with the engage depth of its first pin (R13, R16). -/
def groupOf (envs : List Envelope) (ps : List PlacedPin) : Group :=
  { engage := (ps.head?.map (·.engage)).getD 0
    members := ps.map (·.member envs)
    window := .unopened, baseline := 0, maxShare := none, finalShare := none, present := 0,
    lastDepth := none, carryUnsettled := false, channelFault := false, haltedOpen := false }

/-- One channel of the plan, when a pin stands on it (R12, R13). -/
def channelOf (spacing : Nat) (envs : List Envelope) (pins : List PlacedPin) (h : HeadId) (t : Nat) :
    Option PlanChannel :=
  let mine := pins.filter (fun p => p.head = h && p.tine = t)
  if mine.isEmpty then none
  else some { head := h, tine := t, lastTwo := [],
              groups := (cutGroups spacing 0 [] (mine.foldr insertPin [])).map (groupOf envs) }

/-- The mapped channels in head and tine order (R12, R20). -/
def planChannels (spacing : Nat) (envs : List Envelope) (o : Order) (pins : List PlacedPin) :
    List PlanChannel :=
  let heads := if o.ganged then [o.head, o.head.companion] else [o.head]
  (heads.map (fun h => (List.range 32).filterMap (channelOf spacing envs pins h))).flatten

/-- The complete plan, ARMED (R16, R22), or none when a pin is mapped beyond the tools (R12). -/
def makePlan (c : Setup) (o : Order) (t0 t1 : Nat) (m : MapHeader) (es : List PinEntry)
    (chosen : List (Nat × Option Nat)) (envs : List Envelope) : Option Plan :=
  match placePins o m t0 t1 chosen 0 es with
  | none => none
  | some pins =>
    some { phase := .armed
           contactDepth := 0
           pinCount := m.pinCount
           unjudged := pins.countP (fun p => p.envelope.isNone)
           seatMin := m.seatMin
           seatMax := m.seatMax
           envelopes := envs
           channels := planChannels c.groupSpacing envs o pins
           asked := false }

/-! ## The build's steps (R15) -/

/-- What a step of the build comes to: it fails with PLAN or MEMORY, it reads on at an offset, or the
plan is complete. -/
inductive BuildResult where
  | fail (reason : Reason)
  | read (build : Build) (offset len : Nat)
  | complete (plan : Plan)
deriving DecidableEq, Repr

/-- Offset of a directory slot (section 11.3). -/
def slotOffset (c : Setup) (slot : Nat) : Nat := c.directory + 4 * slot

/-- The build at its beginning: it reads the slot of the order's pin map (R15 step 1). -/
def Build.start : Build :=
  { stage := .slot, header := none, entries := [], classes := [], chosen := [], envelopes := [] }

/-- Steps 4 to 6 go on with the classes left: the next envelope to read, or the complete plan. -/
def Build.choose (c : Setup) (o : Order) (t0 t1 : Nat) (m : MapHeader) (b : Build) : BuildResult :=
  match chooseAll o.classRemap m b.envelopes b.classes b.chosen with
  | .tooMany => .fail .plan
  | .need id classes chosen =>
    .read { b with stage := .envSlot id, classes := classes, chosen := chosen } (slotOffset c (64 + id)) 4
  | .complete chosen =>
    match makePlan c o t0 t1 m b.entries chosen b.envelopes with
    | none => .fail .plan
    | some p => .complete p

/-- The build after a read has completed with `d` (R15): what was read is checked, and the next step
begins. -/
def Build.advance (c : Setup) (o : Order) (t0 t1 : Nat) (d : List Byte) (b : Build) : BuildResult :=
  match b.stage with
  | .slot =>
    match checkSlot c.areaSize 32 (u32At d 0) with
    | none => .fail .plan
    | some off => .read { b with stage := .header off } off 32
  | .header off =>
    match checkMapHeader c.areaSize o off d with
    | none => .fail .plan
    | some m => .read { b with stage := .entries off, header := some m } (off + 32) (8 * m.pinCount)
  | .entries _ =>
    match b.header with
    | none => .fail .plan
    | some m =>
      match checkEntries m d with
      | none => .fail .plan
      | some es => Build.choose c o t0 t1 m { b with entries := es, classes := classesUsed es }
  | .envSlot id =>
    match checkSlot c.areaSize 16 (u32At d 0) with
    | none => .fail .plan
    | some off => .read { b with stage := .envHeader id off } off 16
  | .envHeader id off =>
    if checkEnvelopeHeader c.areaSize id off d then
      .read { b with stage := .envBands id off d } (off + 16) (16 * byteAt d 1)
    else .fail .plan
  | .envBands _ _ hd =>
    match b.header, checkEnvelope hd d with
    | some m, some e => Build.choose c o t0 t1 m { b with envelopes := b.envelopes ++ [e] }
    | _, _ => .fail .plan

end Sys2Proof.Machine
end

