-- ==== Sys2Proof/Machine/Chain.lean ====
section
/-! DEFINITION. The chain reader (chapter 8): link reads and fetches, validation, taking, holding,
rejecting, recording outcomes, stops, and the chain rows of the table. -/

namespace Sys2Proof.Machine

/-! ## Places in an order record (section 11.4) -/

/-- Offset of the status byte. -/
def statusOffset (record : Nat) : Nat := record + 5
/-- Offset of the withdraw byte. -/
def withdrawOffset (record : Nat) : Nat := record + 6
/-- Offset of the device-field block. -/
def fieldsOffset (record : Nat) : Nat := record + 96

/-! ## Lists -/

/-- The queues an order sits in: its head's, or both of its pair (R147). -/
def Order.heads (o : Order) : List HeadId := if o.ganged then [o.head, o.head.companion] else [o.head]

/-- Room for an order: fewer than 16 on the list, fewer than 4 in each of its queues (R147). -/
def Reader.room (r : Reader) (o : Order) : Bool :=
  decide (r.taken.length < 16) && o.heads.all (fun h => decide ((r.queues.get h).length < 4))

/-- The order appended to the tails of the list and of its queues, in one step (R147). -/
def Reader.append (o : Order) (r : Reader) : Reader :=
  { r with
    taken := r.taken ++ [o]
    queues := o.heads.foldl (fun q h => q.set h (q.get h ++ [o.age])) r.queues
    nextAge := o.age + 1 }

/-- The order removed from the list and from every queue (R153, R155). -/
def Reader.remove (age : Nat) (r : Reader) : Reader :=
  { r with
    taken := r.taken.filter (fun o => o.age ≠ age)
    queues := r.queues.map (fun q => q.filter (· ≠ age)) }

/-- An order of the taken list by its age. -/
def Reader.find (r : Reader) (age : Nat) : Option Order := r.taken.find? (fun o => o.age = age)

/-- The order at the front of a head's queue. -/
def Reader.front (r : Reader) (h : HeadId) : Option Order :=
  match r.queues.get h with
  | [] => none
  | age :: _ => r.find age

/-- The order has been taken by a head as its current order: the reader no longer ends it (R154, R155,
log 12). -/
def Reader.markWithHead (age : Nat) (r : Reader) : Reader :=
  { r with taken := r.taken.map (fun o => if o.age = age then { o with withHead := true } else o) }

/-! ## Faults, stops and the end of an order -/

/-- The reader's reads for the chain (R155). -/
def Access.readerRead : Access → Bool
  | .linkRead | .orderFetch | .slotRead | .mapRead | .heldRead => true
  | .setupRead | .headerAll | .header _ | .takenWrite | .rejectWrite | .stopWrite | .activeWrite _
  | .withdrawRead _ | .nudgeRead _ | .startRead _ | .planRead _ | .traceWrite _ | .outcomeWrite _ =>
    false

/-- The reader's own writes of order records. -/
def Access.readerWrite : Access → Bool
  | .takenWrite | .rejectWrite | .stopWrite => true
  | .setupRead | .headerAll | .header _ | .linkRead | .orderFetch | .slotRead | .mapRead | .heldRead
  | .activeWrite _ | .withdrawRead _ | .nudgeRead _ | .startRead _ | .planRead _ | .traceWrite _
  | .outcomeWrite _ => false

/-- An operation that is a write already requested: it runs to its end at a stop (R155). -/
def ReaderOp.isWrite : ReaderOp → Bool
  | .taken _ | .rejectFields _ | .rejectDone _ | .stopFields _ | .stopDone _ => true
  | .none | .link | .fetch _ | .slot _ _ | .mapHeader _ _ | .heldRead => false

/-- Entry to FAULTED (R157): lists kept, held slot emptied, timer stopped, header written, CHERR. -/
def readerFault (why : ChainFault) (s : State) : State :=
  raise .cherr (changeReader (fun r =>
    { r with state := .faulted, heldSlot := none, poll := none, chainFault := why, op := .none }) s)

/-- A read of the anchor's link (R143). -/
def requestLink (s : State) : State :=
  requestRead .linkRead s.reader.anchor 4 (modReader (fun r => { r with op := .link }) s)

/-- A stop in progress goes on (R155): the oldest order that no head has taken is written STOPPED, or,
when none is left, the header's chain fields are written and the stop is over. -/
def stopAdvance (s : State) : State :=
  match s.reader.stopping, s.reader.op with
  | some why, .none =>
    match s.reader.taken.find? (fun o => !o.withHead) with
    | some o =>
      requestWrite .stopWrite (fieldsOffset o.record) (DeviceFields.bare .stopped why).bytes
        (modReader (fun r => { r with op := .stopFields o.age }) s)
    | none => changeReader (fun r => { r with stopping := none }) s
  | _, _ => s

/-- The order becomes the anchor (R149): turn flipped, taken count raised, header written, and the new
anchor's link read, or the stop gone on with when the reader has been stopped (R155). The link read is asked for with
the header write and does not wait for its completion (the model's choice, log 52). -/
def dispose (record : Nat) (s : State) : State :=
  let t := changeReader (fun r =>
    { r with anchor := record, expectedTurn := !r.expectedTurn, takenCount := r.takenCount + 1,
             idleRaised := false, op := .none }) s
  if t.reader.state = .reading then requestLink t else stopAdvance t

/-- The first write of a rejected or withdrawn order: its device fields (R146). -/
def rejectOrder (record : Nat) (outcome : OrderOutcome) (reason : Reason) (s : State) : State :=
  requestWrite .rejectWrite (fieldsOffset record) (DeviceFields.bare outcome reason).bytes
    (modReader (fun r => { r with op := .rejectFields record, heldSlot := none }) s)

/-- The TAKEN write of an order there is room for (R147). -/
def takeNow (o : Order) (s : State) : State :=
  requestWrite .takenWrite (statusOffset o.record) [statusTaken]
    (modReader (fun r => { r with op := .taken o, heldSlot := none }) s)

/-- A valid order taken when there is room, held otherwise (R147, R148). -/
def takeOrHold (o : Order) (s : State) : State :=
  if s.reader.room o then takeNow o s
  else changeReader (fun r => { r with state := .held, heldSlot := some o, op := .none }) s

/-- The held order has room: its withdraw field is read once more (R148). -/
def leaveHeld (s : State) : State :=
  match s.reader.state, s.reader.heldSlot with
  | .held, some o =>
    if s.reader.room o then
      requestRead .heldRead (withdrawOffset o.record) 1
        (changeReader (fun r => { r with state := .reading, op := .heldRead }) s)
    else s
  | _, _ => s

/-- A head's report recorded (R153), in every reader state. -/
def recordOutcome (o : Order) (s : State) : State :=
  leaveHeld (raise .done
    (changeReader (fun r => { r.remove o.age with completed := r.completed + 1 }) s))

/-- The reader stopped by a stop, abort, ESTOP or FAULT (R155, R156): reads given up, the order being
validated or held discarded, timer stopped, nudge flag cleared; then the orders no head has taken are
ended with the reason. The chain fault reason of a FAULTED reader stands until the next start or reset (the
model's choice, log 42). The stop is taken for a cause of a chain part write also where the reader stands STOPPED
already and still ends orders, though no field then changes (the model's choice, log 54). -/
def readerStop (why : Reason) (s : State) : State :=
  let s := dropRequests Access.readerRead s
  let s := changeReader (fun r =>
    { r with state := .stopped, heldSlot := none, poll := none, pendingNudge := false,
             stopping := some why, op := if r.op.isWrite then r.op else .none }) s
  stopAdvance s

/-- The reader at a start whose setup check has passed (R142). What an earlier stop left unfinished is
given up, since the lists are emptied. -/
def readerStart (c : Setup) (s : State) : State :=
  modReader (fun r =>
    { Reader.reset with anchor := c.lead, expectedTurn := !c.initialTurn, nextAge := r.nextAge })
    (dropRequests (fun a => a.readerRead || a.readerWrite) s)

/-- The device enters RUNNING: the reader enters READING with a read of the anchor's link (R142). -/
def readerRun (s : State) : State :=
  requestLink (changeReader (fun r => { r with state := .reading }) s)

/-- NUDGE at the reader (R151). -/
def readerNudge (s : State) : State :=
  match s.reader.state with
  | .waiting => requestLink (changeReader (fun r => { r with state := .reading, poll := none }) s)
  | .reading | .held => modReader (fun r => { r with pendingNudge := true }) s
  | .stopped | .faulted => s

/-! ## What the reads find -/

/-- The reader reaches the end of the chain (R150). -/
def endOfChain (s : State) : State :=
  if s.reader.pendingNudge then requestLink (modReader (fun r => { r with pendingNudge := false }) s)
  else
    let first := !s.reader.idleRaised
    let interval := s.setup.pollInterval
    let s := changeReader (fun r =>
      { r with state := .waiting, op := .none, idleRaised := true,
               poll := if interval = 0 then none else some interval }) s
    if first then raise .idle s else s

/-- A link that passes its checks (R143). -/
def Reader.linkOk (c : Setup) (r : Reader) (link : Nat) : Bool :=
  fits 64 512 link 128 c.areaSize && link ≠ r.anchor && r.taken.all (fun o => o.record ≠ link) &&
    (match r.heldSlot with
      | none => true
      | some o => o.record ≠ link)

/-- The anchor's link as read (R143). -/
def linkFound (link : Option Word) (s : State) : State :=
  match link with
  | none => readerFault .memory s
  | some w =>
    if w = 0 then endOfChain s
    else if s.reader.linkOk s.setup w.toNat then
      requestRead .orderFetch w.toNat 128 (modReader (fun r => { r with op := .fetch w.toNat }) s)
    else readerFault .badLink s

/-- The fetched record (R144, R145): turn first, then checks 1 to 12, then the pin map's slot is read. -/
def orderFetched (data : Option (List Byte)) (s : State) : State :=
  match s.reader.op with
  | .fetch record =>
    match data with
    | none => readerFault .memory s
    | some d =>
      if recordTurn d = (if s.reader.expectedTurn then 1 else 0) then
        match checkOrder s.setup d s.reader.nextAge record with
        | .error why => rejectOrder record .rejected why s
        | .ok o =>
          requestRead .slotRead (slotOffset s.setup o.mapId) 4
            (modReader (fun r => { r with op := .slot o (recordWithdraw d ≠ 0) }) s)
      else readerFault .turn s
  | _ => s

/-- The pin map's slot and header as read for checks 13 and 14 (R145), then the taking (R146 to R148). -/
def tableRead (data : Option (List Byte)) (s : State) : State :=
  match data with
  | none => readerFault .memory s
  | some d =>
    match s.reader.op with
    | .slot o withdraw =>
      match checkSlot s.setup.areaSize 32 (u32At d 0) with
      | none => rejectOrder o.record .rejected .badTable s
      | some off =>
        requestRead .mapRead off 32 (modReader (fun r => { r with op := .mapHeader o withdraw }) s)
    | .mapHeader o withdraw =>
      let pins := u16At d 2
      if !inRange 1 pins 1024 then rejectOrder o.record .rejected .badTable s
      else if o.resultCapacity < pins then rejectOrder o.record .rejected .capacity s
      else if withdraw then rejectOrder o.record .withdrawn .none s
      else takeOrHold { o with pinCount := pins } s
    | _ => s

/-- The held order's withdraw field as read again (R148). -/
def heldRead (value : Option Byte) (s : State) : State :=
  match s.reader.heldSlot with
  | none => s
  | some o =>
    match value with
    | none => readerFault .memory s
    | some v => if v = 0 then takeNow o s else rejectOrder o.record .withdrawn .none s

/-! ## The rows -/

/-- LINK_READ_DONE (R143). -/
def execLinkReadDone (link : Option Word) (s : State) : Host.Outcome State Fault Refusal :=
  finish (onComplete .linkRead (linkFound link) s)

/-- ORDER_FETCH_DONE (R144). -/
def execOrderFetchDone (data : Option (List Byte)) (s : State) : Host.Outcome State Fault Refusal :=
  finish (onComplete .orderFetch (orderFetched data) s)

/-- What the access in flight is for. -/
def State.inFlight (s : State) : Option Access :=
  match s.bus with
  | [] => none
  | r :: _ => if r.granted then some r.access else none

/-- TAKE_TABLE_READ_DONE (R145): of the slot, or of the pin map header. -/
def execTakeTableReadDone (data : Option (List Byte)) (s : State) : Host.Outcome State Fault Refusal :=
  finish (onComplete (if s.inFlight = some .mapRead then .mapRead else .slotRead) (tableRead data) s)

/-- HELD_WITHDRAW_READ_DONE (R148). -/
def execHeldWithdrawReadDone (value : Option Byte) (s : State) : Host.Outcome State Fault Refusal :=
  finish (onComplete .heldRead (heldRead value) s)

/-- The TAKEN write has completed (R147): the order joins the lists and is disposed of. -/
def takenWritten (s : State) : State :=
  match s.reader.op with
  | .taken o => dispose o.record (modReader (Reader.append o) s)
  | _ => s

/-- TAKEN_WRITE_DONE (R147). -/
def execTakenWriteDone (s : State) : Host.Outcome State Fault Refusal :=
  finish (onComplete .takenWrite takenWritten s)

/-- A write of a rejected or withdrawn order has completed (R146). -/
def rejectWritten (s : State) : State :=
  match s.reader.op with
  | .rejectFields record =>
    requestWrite .rejectWrite (statusOffset record) [statusDone]
      (modReader (fun r => { r with op := .rejectDone record }) s)
  | .rejectDone record =>
    dispose record (raise .done (modReader (fun r => { r with completed := r.completed + 1 }) s))
  | _ => s

/-- REJECT_WRITE_DONE (R146). -/
def execRejectWriteDone (s : State) : Host.Outcome State Fault Refusal :=
  finish (onComplete .rejectWrite rejectWritten s)

/-- A write ending a queued order STOPPED has completed (R155). -/
def stopWritten (s : State) : State :=
  match s.reader.op with
  | .stopFields age =>
    match s.reader.find age with
    | none => stopAdvance (modReader (fun r => { r with op := .none }) s)
    | some o =>
      requestWrite .stopWrite (statusOffset o.record) [statusDone]
        (modReader (fun r => { r with op := .stopDone age }) s)
  | .stopDone age =>
    stopAdvance (raise .done (changeReader (fun r =>
      { r.remove age with completed := r.completed + 1, op := .none }) s))
  | _ => s

/-- STOP_WRITE_DONE (R155). -/
def execStopWriteDone (s : State) : Host.Outcome State Fault Refusal :=
  finish (onComplete .stopWrite stopWritten s)

/-- POLL_TIMER_EXPIRE (R150): the timer of a WAITING reader stands at 0. -/
def execPollTimerExpire (s : State) : Host.Outcome State Fault Refusal :=
  finish (if s.reader.state = .waiting ∧ s.reader.poll = some 0 then
    requestLink (changeReader (fun r => { r with state := .reading, poll := none }) s)
  else s)

end Sys2Proof.Machine
end

