-- ==== Sys2Proof/Machine/Evaluator.lean ====
section
/-! DEFINITION. The pin evaluator (chapter 2): windows, shares, bands, verdicts and the connector checks,
as functions of the pin plan and the samples it takes. -/

namespace Sys2Proof.Machine

/-! ## Shares and bands (section 2.5) -/

/-- A band counts a sample of relative depth `r` when from ≤ r < to (R30). -/
def Band.counts (b : Band) (r : Int) : Bool := decide ((b.bandFrom : Int) ≤ r) && decide (r < b.bandTo)

/-- A share below the minimum of a band that counts the sample (R30). -/
def Band.isLow (b : Band) (r share : Int) : Bool := b.counts r && decide (share < b.minShare)

/-- A share above the maximum of a band that counts the sample (R30). -/
def Band.isHigh (b : Band) (r share : Int) : Bool := b.counts r && decide (b.maxShare < share)

/-- A violation in a band whose action is HALT asks for a halt (R31). -/
def Band.asksHalt (b : Band) (r share : Int) : Bool :=
  b.haltAction && (b.isLow r share || b.isHigh r share)

/-- The sample counts of the bands after a sample of relative depth `r` (R30). -/
def bumpCounts (r : Int) : List Band → List Nat → List Nat
  | b :: bs, c :: cs => (if b.counts r then c + 1 else c) :: bumpCounts r bs cs
  | [], cs => cs
  | _ :: _, [] => []

/-- The lowest band number violated at a sample (R30). -/
def firstViolated (r share : Int) : Nat → List Band → Option Nat
  | _, [] => none
  | i, b :: bs => if b.isLow r share || b.isHigh r share then some i else firstViolated r share (i + 1) bs

/-- The envelope a member is judged on, or none for an unjudged one (R6). -/
def Member.judgedOn (m : Member) (envs : List Envelope) : Option Envelope := m.envelope.bind (envs[·]?)

/-- A member after a present sample of its open window (R30, R32): band counts, violations, first
violated band, and BUCKLE against the running maximum as updated by the sample. -/
def Member.observe (envs : List Envelope) (r share runMax : Int) (m : Member) : Member :=
  match m.judgedOn envs with
  | none => m
  | some e =>
    { m with
      counts := bumpCounts r e.bands m.counts
      low := m.low || e.bands.any (·.isLow r share)
      high := m.high || e.bands.any (·.isHigh r share)
      buckle := m.buckle || (decide (0 < e.buckleDrop) && decide (share < runMax - e.buckleDrop))
      firstBand := m.firstBand.or (firstViolated r share 0 e.bands) }

/-- Whether a member's sample violates a HALT band (R31). -/
def Member.asksHalt (envs : List Envelope) (r share : Int) (m : Member) : Bool :=
  match m.judgedOn envs with
  | none => false
  | some e => e.bands.any (·.asksHalt r share)

/-- The opening depth of a group: Dc plus its engage depth (R23). -/
def Group.opening (g : Group) (dc : Int) : Int := dc + g.engage

/-- The share a channel force gives: the force less the baseline, divided by the group size, rounded
toward zero (R29). -/
def Group.share (g : Group) (force : Int) : Int := (force - g.baseline).tdiv g.members.length

/-- The running maximum share after a share (R29). -/
def Group.raisedMax (g : Group) (share : Int) : Int :=
  match g.maxShare with
  | none => share
  | some m => max m share

/-- A group after a sample: an open window holds it; a present value gives the share (R27, R29). -/
def Group.observe (envs : List Envelope) (dc depth : Int) (value : Option Int) (g : Group) : Group :=
  match g.window with
  | .unopened => g
  | .closed => g
  | .opened =>
    match value with
    | none => { g with lastDepth := some depth }
    | some f =>
      let share := g.share f
      let mx := g.raisedMax share
      { g with
        lastDepth := some depth
        present := g.present + 1
        maxShare := some mx
        finalShare := some share
        members := g.members.map (Member.observe envs (depth - g.opening dc) share mx) }

/-- Whether a sample makes some member of an open group ask for a halt (R31). R31 holds that a HALT band cannot
be met in a window that carries a fault mark; a present value older than the fault, replayed into such a window
(R24, R35), asks like any other (the model's choice, log 39). -/
def Group.asksHalt (envs : List Envelope) (dc depth : Int) (value : Option Int) (g : Group) : Bool :=
  match g.window, value with
  | .opened, some f => g.members.any (Member.asksHalt envs (depth - g.opening dc) (g.share f))
  | _, _ => false

/-! ## Verdicts (section 2.7) -/

/-- Relative depth of the window's last sample, 0 for a window that held none (R27). -/
def Group.windowLength (g : Group) (dc : Int) : Int :=
  match g.lastDepth with
  | none => 0
  | some d => d - g.opening dc

/-- A band expected by the window length that counted no sample (R37). -/
def missedBand (len : Int) : List Band → List Nat → Bool
  | b :: bs, c :: cs => (decide ((b.bandFrom : Int) < len) && c = 0) || missedBand len bs cs
  | [], _ => false
  | _ :: _, [] => false

/-- The verdict of a judged member whose window closed with neither fault mark nor halt (R37). -/
def Member.judge (e : Envelope) (g : Group) (dc : Int) (m : Member) : Verdict :=
  match g.maxShare with
  | none => .noData
  | some mx =>
    if mx < e.engageMin then .noEngage
    else if m.buckle then .buckle
    else if m.high then .high
    else if m.low then .low
    else if missedBand (g.windowLength dc) e.bands m.counts then .noData
    else .pass

/-- How a group comes to its end: its window closes, a halt meets it, or the plan closes with the window
unopened (R37, R38). -/
inductive WindowEnd where
  | closes | halted | neverOpened
deriving DecidableEq, Repr

/-- The verdict of a member at its group's end (R37, R38). -/
def Member.verdictAt (envs : List Envelope) (g : Group) (dc : Int) (how : WindowEnd) (m : Member) :
    Verdict :=
  match m.judgedOn envs with
  | none => .unjudged
  | some e => if g.channelFault || how ≠ .closes then .notChecked else m.judge e g dc

/-- A group brought to its end: verdicts formed, HALTED_OPEN for a window open at a halt that carries no
fault mark (R38, R42). -/
def Group.close (envs : List Envelope) (dc : Int) (how : WindowEnd) (g : Group) : Group :=
  { g with
    window := .closed
    haltedOpen := how = .halted && !g.channelFault
    members := g.members.map (fun m => { m with verdict := some (m.verdictAt envs g dc how) }) }

/-! ## Windows (section 2.4) -/

/-- The carry check of an opening group against the window it closes (R33). -/
def carryDue (settle : Nat) (lastTwo : List Int) (before : Option Group) : Bool :=
  match before, lastTwo with
  | some p, a :: b :: _ =>
    0 < settle && p.window = .opened && 2 ≤ p.present && settle < (a - b).natAbs
  | _, _ => false

/-- A group opened at a sample with its baseline, the channel's last present force, or 0 (R26). -/
def Group.openWith (settle : Nat) (lastTwo : List Int) (before : Option Group) (g : Group) : Group :=
  { g with
    window := .opened
    baseline := lastTwo.headD 0
    carryUnsettled := carryDue settle lastTwo before }

/-- The groups of a channel after the cursor has moved for a sample (R25, R27): each group reached opens,
and closes when the next is reached too. `before` is the group ahead in the list as it stood. -/
def advanceGroups (envs : List Envelope) (settle : Nat) (dc depth : Int) (lastTwo : List Int)
    (before : Option Group) : List Group → List Group
  | [] => []
  | g :: rest =>
    let nextReached := (rest.head?.map (fun n => decide (n.opening dc ≤ depth))).getD false
    let opened :=
      match g.window with
      | .closed => g
      | .opened => g
      | .unopened => if g.opening dc ≤ depth then g.openWith settle lastTwo before else g
    let g' := if opened.window = .opened ∧ nextReached then opened.close envs dc .closes else opened
    g' :: advanceGroups envs settle dc depth lastTwo (some g) rest

/-- A plan channel after it has taken a sample: cursor first, then attribution (R25, R29). -/
def PlanChannel.take (envs : List Envelope) (settle : Nat) (dc depth : Int) (value : Option Int)
    (c : PlanChannel) : PlanChannel :=
  { c with
    groups := (advanceGroups envs settle dc depth c.lastTwo none c.groups).map
      (Group.observe envs dc depth value)
    lastTwo := match value with
      | none => c.lastTwo
      | some v => (v :: c.lastTwo).take 2 }

/-- Whether the sample makes the channel ask for a halt (R31). -/
def PlanChannel.asksHalt (envs : List Envelope) (settle : Nat) (dc depth : Int) (value : Option Int)
    (c : PlanChannel) : Bool :=
  (advanceGroups envs settle dc depth c.lastTwo none c.groups).any (Group.asksHalt envs dc depth value)

/-- The cursor of a channel: the index of its open group (section 2.4). -/
def PlanChannel.cursor (c : PlanChannel) : Option Nat := c.groups.findIdx? (·.window = .opened)

/-- A channel's value in a sample, found by head and tine (R11, R21). -/
def Sample.value (s : Sample) (primary : HeadId) (h : HeadId) (tine : Nat) : Option Int :=
  if h = primary then s.own.getD tine none else s.companion.getD tine none

/-! ## The plan -/

/-- The plan after taking a sample (R25 to R33). PIN_HALT is asked at most once in a stroke (R31). -/
def Plan.take (settle : Nat) (primary : HeadId) (smp : Sample) (p : Plan) : Plan :=
  { p with
    asked := p.asked || p.channels.any (fun c =>
      c.asksHalt p.envelopes settle p.contactDepth smp.depth (smp.value primary c.head c.tine))
    channels := p.channels.map (fun c =>
      c.take p.envelopes settle p.contactDepth smp.depth (smp.value primary c.head c.tine)) }

/-- Every group of a FAULTED channel whose window has not closed is marked (R35). A CLOSED plan is not
touched. -/
def Plan.markFaults (faulted : HeadId → Nat → Bool) (p : Plan) : Plan :=
  match p.phase with
  | .closed => p
  | .armed | .live =>
    { p with channels := p.channels.map (fun c =>
        if faulted c.head c.tine then
          { c with groups := c.groups.map (fun g =>
              if g.window = .closed then g else { g with channelFault := true }) }
        else c) }

/-- The plan made LIVE at contact, with Dc (R22, R23). -/
def Plan.goLive (dc : Int) (p : Plan) : Plan := { p with phase := .live, contactDepth := dc }

/-- The replay (R24): the history's samples from the one at Dc on, oldest first. -/
def Plan.replay (settle : Nat) (primary : HeadId) : List Sample → Plan → Plan
  | [], p => p
  | smp :: rest, p => Plan.replay settle primary rest (p.take settle primary smp)

/-- Every window brought to its end and the phase CLOSED (R39, R42, R44): open windows by `openEnd`. -/
def Plan.closeAll (openEnd : WindowEnd) (p : Plan) : Plan :=
  { p with
    phase := .closed
    channels := p.channels.map (fun c =>
      { c with groups := c.groups.map (fun g =>
          match g.window with
          | .closed => g
          | .opened => g.close p.envelopes p.contactDepth openEnd
          | .unopened => g.close p.envelopes p.contactDepth .neverOpened) }) }

/-- The result entry of a member (R45, R158). -/
def Member.result (c : PlanChannel) (g : Group) (m : Member) : ResultEntry :=
  { index := m.entry
    verdict := m.verdict.getD .notChecked
    grouped := 2 ≤ g.members.length
    carryUnsettled := g.carryUnsettled
    channelFault := g.channelFault
    haltedOpen := g.haltedOpen
    groupSize := if 2 ≤ g.members.length then g.members.length else 0
    maxShare := g.maxShare.getD 0
    finalShare := g.finalShare.getD 0
    firstBand := m.firstBand
    tine := c.tine
    head := c.head }

/-- An entry put in its place by entry index. -/
def insertEntry (e : ResultEntry) : List ResultEntry → List ResultEntry
  | [] => [e]
  | x :: xs => if e.index ≤ x.index then e :: x :: xs else x :: insertEntry e xs

/-- The result entries of all pins in entry index order (R45). -/
def Plan.entries (p : Plan) : List ResultEntry :=
  let all := (p.channels.map (fun c => (c.groups.map (fun g => g.members.map (Member.result c g))).flatten)).flatten
  all.foldr insertEntry []

/-- The verdicts counted as pins failed (R41). -/
def Verdict.isFailed : Verdict → Bool
  | .noEngage | .buckle | .high | .low | .noData => true
  | .pass | .notChecked | .unjudged => false

/-- What the evaluator hands over at its close (R41, R42, R44). -/
def Plan.handOver (outcome : OrderOutcome) (reason : Reason) (p : Plan) : HandOver :=
  let es := p.entries
  { outcome := outcome
    reason := reason
    failed := es.countP (fun e => e.verdict.isFailed)
    notChecked := es.countP (fun e => e.verdict = .notChecked)
    unjudged := es.countP (fun e => e.verdict = .unjudged)
    entries := es }

/-- Outcome and reason at press end (R40, R41): a connector check's reason first, NO_SEAT before
SEAT_RANGE; then PIN; else PASS. -/
def pressOutcome (noSeat seatRange pins : Bool) : OrderOutcome × Reason :=
  if noSeat then (.fail, .noSeat)
  else if seatRange then (.fail, .seatRange)
  else if pins then (.fail, .pin)
  else (.pass, .none)

/-- The close at press end (R39 to R41): `depth` is the press-end depth, `seated` whether the seat
condition was met at that sample. -/
def Plan.pressEnd (depth : Int) (mode : SeatMode) (seated : Bool) (p : Plan) : Plan × HandOver :=
  let p' := p.closeAll .closes
  let rel := depth - p.contactDepth
  let range := decide (rel < p.seatMin) || decide (p.seatMax < rel)
  let noSeat := mode ≠ .depth && !seated
  let counted := p'.handOver .pass .none
  let o := pressOutcome noSeat range (0 < counted.failed + counted.notChecked)
  (p', { counted with outcome := o.1, reason := o.2 })

/-- The close at a halt while ARMED or LIVE (R42). -/
def Plan.haltClose (reason : Reason) (p : Plan) : Plan × HandOver :=
  let p' := p.closeAll .halted
  (p', p'.handOver .aborted reason)

/-- The close at the seek limit without contact (R44). -/
def Plan.noContact (p : Plan) : Plan × HandOver :=
  let p' := p.closeAll .halted
  (p', p'.handOver .fail .noContact)

end Sys2Proof.Machine
end

