-- ==== Sys2Proof/Machine/Sensing.lean ====
section
/-! DEFINITION. The sense front-end (chapter 4, sections 5.5 and 6.7): depth, triggers and scans, from raw
reading to force, channel health, the sample, contact detection, and the tare's arithmetic. -/

namespace Sys2Proof.Machine

/-! ## Depth (section 4.1) -/

/-- Place of a pair of accepted levels in the sequence (0,0), (1,0), (1,1), (0,1) (R77). -/
def quadrature (a b : Bool) : Nat :=
  match a, b with
  | false, false => 0
  | true, false => 1
  | true, true => 2
  | false, true => 3

/-- A step of the pair from `p` to `q`: forward is downward travel, one micrometre (R77). -/
def quadStep (p q : Nat) : Int := if q = (p + 1) % 4 then 1 else if p = (q + 1) % 4 then -1 else 0

/-- The depth stops at the limits of a signed 32-bit count (R77). -/
def clampDepth (d : Int) : Int := max (-2147483648) (min 2147483647 d)

/-- One line at a filter sample that finds it at `pin`: whether the sample before was a first one to show the
other level, and whether this one is the second of two, at which the change is accepted (R76). -/
def filterLine (seen level pin : Bool) : Bool × Bool := (pin ≠ level && !seen, pin ≠ level && seen)

/-- What a filter sample accepts on the two lines (R76, R77). -/
def edgeOf (a b : Bool) : Option EncoderEdge :=
  match a, b with
  | false, false => none
  | true, false => some .lineA
  | false, true => some .lineB
  | true, true => some .both

/-- The front-end after a filter sample that finds its encoder lines at `a` and `b`, and what the sample
accepts: the lines are filtered apart, and a pulse of one sample is lost (R76). The accepted level itself
changes with the edge. -/
def Sense.filter (a b : Bool) (x : Sense) : Sense × Option EncoderEdge :=
  let onA := filterLine x.seenA x.levelA a
  let onB := filterLine x.seenB x.levelB b
  ({ x with pinA := a, pinB := b, seenA := onA.1, seenB := onB.1 }, edgeOf onA.2 onB.2)

/-- The edge is one of line A, alone or in a two-line jump. -/
def edgeOnA : EncoderEdge → Bool
  | .lineA | .both => true
  | .lineB => false

/-- The edge is one of line B, alone or in a two-line jump. -/
def edgeOnB : EncoderEdge → Bool
  | .lineB | .both => true
  | .lineA => false

/-- Line A after an accepted edge of it: the pin shows the level accepted (R76). -/
def Sense.acceptA (x : Sense) : Sense :=
  { x with pinA := !x.levelA, seenA := false, levelA := !x.levelA }

/-- Line B after an accepted edge of it: the pin shows the level accepted (R76). -/
def Sense.acceptB (x : Sense) : Sense :=
  { x with pinB := !x.levelB, seenB := false, levelB := !x.levelB }

/-- The lines of an edge accepted, the other line left as it stands. -/
def Sense.accept (edge : EncoderEdge) (x : Sense) : Sense :=
  let y := if edgeOnA edge then x.acceptA else x
  if edgeOnB edge then y.acceptB else y

/-- The depth when the accepted levels of `x` become those of `y`, unless RAM_TOP holds it at 0 (R77, R78). -/
def Sense.depthTo (top : Bool) (x y : Sense) : Int :=
  if top then 0
  else clampDepth (x.depth + quadStep (quadrature x.levelA x.levelB) (quadrature y.levelA y.levelB))

/-- The front-end after an accepted edge or a two-line jump (R77, R78). -/
def Sense.edge (edge : EncoderEdge) (top : Bool) (x : Sense) : Sense :=
  { x.accept edge with depth := x.depthTo top (x.accept edge) }

/-! ## From raw reading to force (section 4.3) -/

/-- Calibrated force in 0.1 N (R84). -/
def calibrate (raw offset : Int) (gain : Nat) : Int := ((raw - offset) * gain).tdiv 16384

/-- A raw reading at either limit of the converter (R85). -/
def atConverterLimit (raw : Raw) : Bool := raw.toInt = -32768 || raw.toInt = 32767

/-- The force differs from the slew reference by more than the slew limit (R85). -/
def beyondSlew (limit : Nat) (ref : Option Int) (force : Int) : Bool :=
  match ref with
  | none => false
  | some r => limit < (force - r).natAbs

/-- A glitch on a channel that is not FAULTED: its counter, and its health when it reaches the glitch
limit or 128 (R85, R86). The flag tells of an entry to SUSPECT or FAULTED. -/
def Channel.glitch (limit : Nat) (ch : Channel) : Channel × Bool :=
  let n := min 255 (ch.glitches + 1)
  if limit ≤ n then ({ ch with glitches := n, health := .faulted .glitch }, true)
  else if 128 ≤ n ∧ ch.health = .ok then ({ ch with glitches := n, health := .suspect }, true)
  else ({ ch with glitches := n }, false)

/-- One tine's reading made into a value (R84 to R88, R91): the channel after it, the present force or
none, and whether CHWARN is due. `reverse` says whether the reverse test is made (R87). -/
def Channel.read (c : Setup) (reverse : Bool) (gain : Nat) (raw : Raw) (ch : Channel) :
    Channel × Option Int × Bool :=
  match ch.health with
  | .faulted _ => (ch, none, false)
  | .ok | .suspect =>
    let f := calibrate raw.toInt ch.offset gain
    if atConverterLimit raw || beyondSlew c.slewLimit ch.slewRef f then
      ((ch.glitch c.glitchLimit).1, none, (ch.glitch c.glitchLimit).2)
    else if reverse && decide (f < -(c.reverseThreshold : Int)) then
      ({ ch with health := .faulted .reversed }, none, true)
    else ({ ch with slewRef := some f }, some f, false)

/-- What a scan of some tines comes to. -/
structure Scanned where
  channels : List Channel
  values : List (Option Int)
  warn : Bool
deriving DecidableEq, Repr

/-- A scan's readings processed tine by tine from tine 0 (R81, R91), `n` tines; the channels beyond stay
as they are. -/
def scanTines (c : Setup) (reverse : Bool) : Nat → List Nat → List Raw → List Channel → Scanned
  | 0, _, _, chs => { channels := chs, values := [], warn := false }
  | _ + 1, _, _, [] => { channels := [], values := [], warn := false }
  | n + 1, gains, raws, ch :: chs =>
    let one := ch.read c reverse (gains.headD 0) (raws.headD 0)
    let rest := scanTines c reverse n gains.tail raws.tail chs
    { channels := one.1 :: rest.channels, values := one.2.1 :: rest.values, warn := one.2.2 || rest.warn }

/-- A tool whose converter was not started for the firing: every tine missing, its channels untouched
(R36, R82). -/
def unscanned (n : Nat) (chs : List Channel) : Scanned :=
  { channels := chs, values := List.replicate n none, warn := false }

/-- Sum over the present values (R90). -/
def sumPresent (vs : List (Option Int)) : Int := vs.foldl (fun a v => a + v.getD 0) 0

/-- Some channel's force exceeds ten times its limit (R63). -/
def overLimit : List Nat → List (Option Int) → Bool
  | l :: ls, v :: vs => decide (10 * (l : Int) < v.getD 0 ∧ v.isSome) || overLimit ls vs
  | [], _ => false
  | _ :: _, [] => false

/-! ## Contact detection (section 4.6) -/

/-- A depth at or past the last qualifying depth plus the contact reset distance (R92). -/
def Contact.past (c : Setup) (depth : Int) (x : Contact) : Bool :=
  match x.lastQualifying with
  | none => false
  | some q => decide (q + c.contactReset ≤ depth)

/-- A sample of SEEK given to contact detection (R92, R93). Once contact is confirmed no further sample
is taken. A run that is dropped leaves neither candidate nor last qualifying depth (section 4.8). -/
def Contact.take (c : Setup) (depth sum : Int) (x : Contact) : Contact :=
  if x.confirmed then x
  else if c.contactThreshold ≤ sum then
    { run := x.run + 1
      candidate := if x.run = 0 then some depth else x.candidate
      lastQualifying := some depth
      confirmed := x.run + 1 = c.contactCount }
  else if 0 < x.run ∧ x.past c depth then
    { x with run := 0, candidate := none, lastQualifying := none }
  else x

/-! ## History (section 4.7) -/

/-- A step-triggered sample entered; a seventeenth drops the oldest (R94). -/
def addHistory (h : List Sample) (smp : Sample) : List Sample :=
  let all := h ++ [smp]
  all.drop (all.length - 16)

/-- The samples of the replay: from the one at Dc on (R24). -/
def replayOf (dc : Int) (h : List Sample) : List Sample := h.filter (fun smp => decide (dc ≤ smp.depth))

/-- The rise of the newest sample's sum over that of the sample four entries earlier (R64, R94). -/
def shoulderRiseOf (h : List Sample) : Option Int :=
  match h.reverse with
  | n :: _ :: _ :: _ :: f :: _ => some (n.sum - f.sum)
  | _ => none

/-! ## Scans (section 4.2) -/

/-- The front-end of a head as entry to APPROACH leaves it (R80, R82, R85, R90, R94): `arm` for the head
whose step trigger serves the stroke (R126), with the order's pitch. -/
def Sense.approach (arm : Bool) (pitch : Nat) (x : Sense) : Sense :=
  { x with
    triggerArmed := arm
    nextTrigger := if arm then x.depth + pitch else x.nextTrigger
    overruns := 0
    peak := 0
    latest := 0
    history := []
    channels := x.channels.map (fun ch => { ch with slewRef := none }) }

/-- The step trigger disarmed at a halt: the scans still running are discarded without being processed (R69,
R80, R81). -/
def Sense.disarm (x : Sense) : Sense :=
  { x with triggerArmed := false, firings := x.firings.map (fun f => { f with discard := true }) }

/-- A firing whose step trigger has been disarmed while its scans run (log 18). -/
def Firing.belated (f : Firing) : Firing :=
  match f.kind with
  | .step => { f with kind := .late }
  | .late | .dwell | .tare => f

/-- The step trigger disarmed at press end or at the seek limit: the scans still running go on to their samples
(R64, R62, R80, R81, log 18). -/
def Sense.endTrigger (x : Sense) : Sense :=
  { x with triggerArmed := false, firings := x.firings.map Firing.belated }

/-- The stroke overrun count, stopping at 65 535 (R82). -/
def Sense.overrun (x : Sense) : Sense := { x with overruns := min 65535 (x.overruns + 1) }

/-- Converters that have converted their last tine by now are IDLE (R81, log 8). -/
def convertersDone (x : HeadId) (done : Converted) (s : State) : State :=
  let s := modSense x (fun n => { n with scanning := n.scanning && !done.own }) s
  if (s.head x).gang then
    modSense x.companion (fun n => { n with scanning := n.scanning && !done.companion }) s
  else s

/-- A firing of the step trigger, or a tick of the scan timer in DWELL, at head `x` (R81 to R83, R126): a
scan on each converter that is IDLE, an overrun where one is SCANNING, no sample where all are. -/
def fireScan (kind : ScanKind) (x : HeadId) (s : State) : State :=
  let gang := (s.head x).gang
  let ownBusy := (s.sense x).scanning
  let compBusy := (s.sense x.companion).scanning
  let own := !ownBusy
  let comp := gang && !compBusy
  let s := if ownBusy || (gang && compBusy) then modSense x Sense.overrun s else s
  let s := if own then modSense x (fun n => { n with scanning := true }) s else s
  let s := if comp then modSense x.companion (fun n => { n with scanning := true }) s else s
  if own || comp then
    modSense x (fun n => { n with
      firings := n.firings ++
        [{ kind := kind, depth := n.depth, own := own, companion := comp, discard := false }] }) s
  else s

/-- The step trigger after an accepted edge that has moved the depth from `before` (R80): a move downward that comes
to or past the next trigger depth fires it, and the next trigger depth is one pitch past the sample depth, whether
or not a scan could start; anything else fires nothing (a trigger passed by the depth becoming 0 is log 44's). -/
def stepTrigger (x : HeadId) (pitch : Nat) (before : Int) (s : State) : State :=
  let n := s.sense x
  if n.triggerArmed && decide (before < n.depth) && decide (n.nextTrigger ≤ n.depth) then
    modSense x (fun n => { n with nextTrigger := n.depth + pitch }) (fireScan .step x s)
  else s

/-- The oldest firing taken out, its converters IDLE unless a later firing has started them again
(R81). -/
def endFiring (x : HeadId) (f : Firing) (rest : List Firing) (s : State) : State :=
  let s := modSense x (fun n => { n with
    firings := rest
    scanning := n.scanning && (!f.own || rest.any (·.own)) }) s
  if f.companion then
    modSense x.companion (fun n => { n with scanning := n.scanning && rest.any (·.companion) }) s
  else s

/-! ## The sample (section 4.5) -/

/-- Scans started by the scan timer (R83, R91). -/
def ScanKind.timed : ScanKind → Bool
  | .step | .late => false
  | .dwell | .tare => true

/-- Every channel of both heads' tools processed for a firing, the sample made of it, and the peak and
latest sum force of the primary (R90, R91, R126). -/
def makeSample (x : HeadId) (f : Firing) (ownRaw compRaw : List Raw) (reverse : Bool) (s : State) :
    Sample × State :=
  let c := s.setup
  let t0 := (s.tool x).tines
  let own := if f.own then scanTines c reverse t0 (s.tool x).gains ownRaw (s.sense x).channels
    else unscanned t0 (s.sense x).channels
  let s := modSense x (fun n => { n with channels := own.channels }) s
  let s := if own.warn then raise .chwarn s else s
  let y := x.companion
  let gang := (s.head x).gang
  let t1 := if gang then (s.tool y).tines else 0
  let comp := if f.companion then scanTines c reverse t1 (s.tool y).gains compRaw (s.sense y).channels
    else unscanned t1 (s.sense y).channels
  let s := if gang then modSense y (fun n => { n with channels := comp.channels }) s else s
  let s := if comp.warn then raise .chwarn s else s
  let sum := sumPresent own.values + sumPresent comp.values
  let smp : Sample :=
    { depth := f.depth
      own := own.values
      companion := comp.values
      ownHealth := (own.channels.take t0).map (·.health)
      companionHealth := if gang then (comp.channels.take t1).map (·.health) else []
      sum := sum
      timed := f.kind.timed }
  (smp, modSense x (fun n => { n with peak := max n.peak sum, latest := sum }) s)

/-- Health of a channel as the sense front-end holds it. -/
def State.health (s : State) (h : HeadId) (tine : Nat) : Health :=
  ((s.sense h).channels.getD tine Channel.reset).health

/-- A FAULTED channel, whatever the cause. -/
def State.channelFaulted (s : State) (h : HeadId) (tine : Nat) : Bool :=
  match s.health h tine with
  | .faulted _ => true
  | .ok | .suspect => false

/-! ## Tare (section 5.5) -/

/-- A tare is due (R111). -/
def Sense.tareDue (c : Setup) (x : Sense) : Bool :=
  !x.tareValid || (decide (c.tarePeriod ≤ 7) && decide (2 ^ c.tarePeriod ≤ x.strokesSinceTare))

/-- A tare begun on a tool of `tines` tines: no scan taken (R112). -/
def Sense.startTare (tines : Nat) (x : Sense) : Sense :=
  { x with tare := some { sums := List.replicate tines 0, taken := 0 } }

/-- A tare abandoned: sums discarded, offsets and health as before, tare invalid (R113). -/
def Sense.abandonTare (x : Sense) : Sense :=
  match x.tare with
  | none => x
  | some _ =>
    { x with
      tare := none
      tareValid := false
      firings := x.firings.map (fun f => { f with discard := true }) }

/-- Raw readings added to the sums, tine by tine. -/
def addReadings : List Int → List Raw → List Int
  | [], _ => []
  | a :: as, raws => (a + (raws.headD 0).toInt) :: addReadings as raws.tail

/-- One timed scan of a tare: each channel's raw reading added to its sum (R83, R112). -/
def Tare.addScan (raws : List Raw) (t : Tare) : Tare :=
  { sums := addReadings t.sums raws, taken := t.taken + 1 }

/-- A channel that passes a tare (R88, R112): its offset is the mean; a TARE or REVERSED fault clears,
to SUSPECT when its glitch counter is 128 or more; a GLITCH fault stays. -/
def Channel.passTare (mean : Int) (ch : Channel) : Channel × Bool :=
  let ch := { ch with offset := mean }
  match ch.health with
  | .faulted .glitch => (ch, false)
  | .faulted _ =>
    if ch.glitches < 128 then ({ ch with health := .ok }, false) else ({ ch with health := .suspect }, true)
  | .ok | .suspect => (ch, false)

/-- A channel that fails a tare (R88, R112): its offset stays; it becomes FAULTED TARE unless FAULTED
GLITCH; CHWARN for an entry to FAULTED. -/
def Channel.failTare (ch : Channel) : Channel × Bool :=
  match ch.health with
  | .faulted .glitch => (ch, false)
  | .faulted _ => ({ ch with health := .faulted .tare }, false)
  | .ok | .suspect => ({ ch with health := .faulted .tare }, true)

/-- A channel judged on its mean against the tare offset limit (R112). -/
def Channel.settleTare (limit scans : Nat) (sum : Int) (ch : Channel) : Channel × Bool :=
  let mean := sum.tdiv scans
  if limit < mean.natAbs then ch.failTare else ch.passTare mean

/-- The channels below T judged one by one (R112), those beyond as they were. -/
def settleTares (limit scans : Nat) : List Int → List Channel → List Channel × Bool
  | a :: as, ch :: chs =>
    let one := ch.settleTare limit scans a
    let rest := settleTares limit scans as chs
    (one.1 :: rest.1, one.2 || rest.2)
  | [], chs => (chs, false)
  | _ :: _, [] => ([], false)

/-- Timed scans a tare takes: 2 raised to the tare average exponent (R112). -/
def tareScans (c : Setup) : Nat := 2 ^ c.tareAverage

/-- What a device start does to a front-end: every channel OK with counter 0 (R85, R88), tare invalid and
strokes since tare 0 (R98). -/
def Sense.deviceStart (x : Sense) : Sense :=
  { x with
    channels := x.channels.map (fun ch => { ch with health := .ok, glitches := 0 })
    tareValid := false
    strokesSinceTare := 0 }

/-- What a tool attach does to a front-end (R96): channels OK, counters and offsets 0, tare invalid. -/
def Sense.toolAttach (x : Sense) : Sense :=
  { x with
    channels := x.channels.map (fun ch => { ch with health := .ok, glitches := 0, offset := 0 })
    tareValid := false
    strokesSinceTare := 0 }

end Sys2Proof.Machine
end

