-- ==== Sys2Proof/Machine/ToolRecord.lean ====
section
/-! DEFINITION. The tool record and what changes it (sections 5.1, 5.3, 5.4), as functions of one head's
tool; the steps of the tool bus stand in ToolBus.lean. -/

namespace Sys2Proof.Machine

/-- Calibration pages a tine count needs: T divided by 8, rounded up (section 5.3). -/
def calPages (tines : Nat) : Nat := (tines + 7) / 8

/-- The wear page, always the tool's last (section 5.3). -/
def wearPage (tines : Nat) : Nat := calPages tines + 1

/-- Page and half of a block for a tool of `tines` tines (R106). -/
def ToolBlock.place (tines : Nat) : ToolBlock → Nat × Bool
  | .base => (0, false)
  | .cal i => (i / 2 + 1, i % 2 = 1)
  | .wear => (wearPage tines, false)

/-- The block read after a calibration block or the base block: the calibration blocks up to the one that
holds tine T − 1, then the wear block (R106). -/
def nextCal (tines i : Nat) : ToolBlock := if 4 * i < tines then .cal i else .wear

/-- The record cleared (R96, R97, R98); WORN is clear outside READY (R95). -/
def Tool.clearRecord (t : Tool) : Tool :=
  { t with toolType := 0, tines := 0, pages := 0, gains := [], limits := [], strokes := 0, wearLimit := 0,
           worn := false }

/-- A new request takes the place of the pending one, with no retry spent. -/
def Tool.queue (r : ToolRequest) (t : Tool) : Tool :=
  { t with request := r, retries := 0, wearData := none, wearGranted := false, wearAgain := false,
           identifyAfter := false }

/-- Identification from the first block (R96, R98). -/
def Tool.identify (t : Tool) : Tool :=
  { t.clearRecord.queue (.identify .base) with state := .identify }

/-- Entry to FAULT: the last record is kept, WORN cleared, the request dropped (R95, R99). -/
def Tool.toFault (t : Tool) : Tool := { t.queue .none with state := .fault, worn := false }

/-- Tool attach (R96). -/
def Tool.attach (t : Tool) : Tool := { t.identify with toggle := false }

/-- Tool removal (R97): the toggle is left as it was (R105). -/
def Tool.removal (t : Tool) : Tool := { t.clearRecord.queue .none with state := .absent }

/-- WORN by the record's own counts (R108, R109). -/
def Tool.wornNow (t : Tool) : Bool := t.wearLimit ≠ 0 && t.wearLimit ≤ t.strokes

/-- The data of a wear write as the record holds it (R110). -/
def Tool.wearNow (t : Tool) : WearData :=
  { page := wearPage t.tines, strokes := t.strokes, limit := t.wearLimit }

/-- The wear write due to a counted stroke (R109): a first one is queued; one not yet granted serves; one
already granted is followed by another. -/
def Tool.queueWear (t : Tool) : Tool :=
  match t.request with
  | .wearWrite => if t.wearGranted then { t with wearAgain := true } else t
  | .none | .identify _ => t.queue .wearWrite

/-- A counted stroke on a READY tool (R109): count, WORN, wear write. On any other tool nothing. -/
def Tool.countStroke (t : Tool) : Tool :=
  match t.state with
  | .ready =>
    let n := min 4294967295 (t.strokes + 1)
    let u := { t with strokes := n }
    { u with worn := t.worn || u.wornNow }.queueWear
  | .absent | .identify | .fault => t

/-- At a device start with TOOL_PRESENT asserted (R98): identification afresh. A wear write pending or on
the bus is kept and carried out first, with the data it would have had, and a second write owed behind it
(R109) is dropped (log 16); an identification read
on the bus runs to its end and its reply is discarded, so the new one is queued when it ends. -/
def Tool.restart (onBus : Bool) (t : Tool) : Tool :=
  match t.request with
  | .wearWrite =>
    { t.clearRecord with
      state := .identify
      wearData := some (t.wearData.getD t.wearNow)
      wearAgain := false
      identifyAfter := true }
  | .identify _ => if onBus then { t.identify with request := .none } else t.identify
  | .none => t.identify

/-- At a device start with TOOL_PRESENT not asserted (R98). -/
def Tool.startAbsent (t : Tool) : Tool := { t.clearRecord.queue .none with state := .absent }

/-! ## What identification reads (R107, R108) -/

/-- A block's reply once its transaction has succeeded: MORE and the sixteen bytes. -/
structure BlockReply where
  more : Bool
  data : List Byte
deriving DecidableEq, Repr

/-- The base block passes (R107). -/
def baseOk (r : BlockReply) : Bool :=
  u16At r.data 0 ≠ 0 && inRange 1 (byteAt r.data 2) 32 &&
    byteAt r.data 3 = calPages (byteAt r.data 2) + 2 && byteAt r.data 3 ≤ 8 && r.more

/-- Tines a calibration block gives below T (R108). -/
def calTines (tines i : Nat) : Nat := min 4 (tines - 4 * i)

/-- Gain and limit of the first `n` tines of a calibration block (section 11.7). -/
def calEntries (d : List Byte) : Nat → Nat → List (Nat × Nat)
  | _, 0 => []
  | m, n + 1 => (u16At d (4 * m), u16At d (4 * m + 2)) :: calEntries d (m + 1) n

/-- A calibration block passes: every tine below T has gain and limit other than 0, and MORE 1 (R108). -/
def calOk (es : List (Nat × Nat)) (r : BlockReply) : Bool :=
  es.all (fun e => e.1 ≠ 0 && e.2 ≠ 0) && r.more

/-- The tool after an identification block has arrived: the record grows and the next block is queued, or
the tool becomes READY, or it enters FAULT (R106 to R108). -/
def Tool.identified (b : ToolBlock) (r : BlockReply) (t : Tool) : Tool :=
  match b with
  | .base =>
    if baseOk r then
      { t.queue (.identify (nextCal (byteAt r.data 2) 0)) with
        toolType := BitVec.ofNat 16 (u16At r.data 0), tines := byteAt r.data 2,
        pages := byteAt r.data 3 }
    else t.toFault
  | .cal i =>
    let es := calEntries r.data 0 (calTines t.tines i)
    if calOk es r then
      { t.queue (.identify (nextCal t.tines (i + 1))) with
        gains := t.gains ++ es.map (·.1), limits := t.limits ++ es.map (·.2) }
    else t.toFault
  | .wear =>
    if r.more then t.toFault
    else
      let u := { t.queue .none with
        state := .ready, strokes := u32At r.data 0, wearLimit := u32At r.data 4 }
      { u with worn := u.wornNow }

/-- The tool after its wear write has succeeded (R98, R109, R110). -/
def Tool.wearWritten (t : Tool) : Tool :=
  if t.identifyAfter then t.queue (.identify .base)
  else if t.wearAgain then t.queue .wearWrite
  else t.queue .none

/-- The tool after an attempt has failed (R103): a retry counted, or, at the fourth failure, the request
ended: FAULT, or identification when the write was the one R98 keeps. -/
def Tool.attemptFailed (t : Tool) : Tool :=
  if t.retries < 3 then { t with retries := t.retries + 1 }
  else if t.identifyAfter then t.queue (.identify .base)
  else t.toFault

end Sys2Proof.Machine
end

