-- ==== Sys2Proof/Machine/Zones.lean ====
section
/-! DEFINITION. The zone arbiter (sections 6.1 to 6.4): intervals, requests, withdrawals, releases and
the pass. The head's side of a claim (what it asks, when it lets go) stands in Stroke.lean. -/

namespace Sys2Proof.Machine

/-- Low end of an order's widened interval (R115). -/
def intervalLow (margin zoneFrom : Nat) : Nat := zoneFrom - margin

/-- High end of an order's widened interval (R115). -/
def intervalHigh (margin zoneTo : Nat) : Nat := min 65535 (zoneTo + margin)

/-- Two intervals share at least one coordinate (R115). -/
def overlap (l1 h1 l2 h2 : Nat) : Bool := l1 ≤ h2 && l2 ≤ h1

/-- An entry that is HELD and overlaps an interval. WAITING entries occupy no board (R116). -/
def Claim.blocks (low high : Nat) : Claim → Bool
  | .held l h => overlap low high l h
  | .empty => false
  | .waiting _ _ _ => false

/-- The interval is disjoint from every HELD entry (R116). -/
def free (t : Four Claim) (low high : Nat) : Bool := HeadId.all.all (fun h => !(t.get h).blocks low high)

/-- A WAITING entry on its way through a pass. -/
structure Waiter where
  head : HeadId
  low : Nat
  high : Nat
  age : Nat
deriving DecidableEq, Repr

/-- A waiter put in its place by the age of its order, oldest first (R120). -/
def insertWaiter (w : Waiter) : List Waiter → List Waiter
  | [] => [w]
  | x :: xs => if w.age ≤ x.age then w :: x :: xs else x :: insertWaiter w xs

/-- The WAITING entries of the table. -/
def waiters (t : Four Claim) : List Waiter :=
  HeadId.all.filterMap (fun h =>
    match t.get h with
    | .waiting l u a => some { head := h, low := l, high := u, age := a }
    | .empty | .held _ _ => none)

/-- One head's entry becomes HELD and its grant is sent (R116, R120). -/
def grantClaim (w : Waiter) (s : State) : State :=
  { s with claims := s.claims.set w.head (.held w.low w.high), grants := s.grants.set w.head (some w.age) }

/-- The pass over ranked entries: each that is disjoint from every entry HELD at its turn is granted
(R120). -/
def passOver : List Waiter → State → State
  | [], s => s
  | w :: ws, s => passOver ws (if free s.claims w.low w.high then grantClaim w s else s)

/-- One pass, oldest order first (R120). -/
def pass (s : State) : State := passOver ((waiters s.claims).foldr insertWaiter []) s

/-- A release makes the entry EMPTY, then one pass (R119). -/
def arbiterRelease (h : HeadId) (s : State) : State :=
  pass { s with claims := s.claims.set h .empty }

/-- A request is granted when disjoint from every HELD entry, and waits otherwise (R116). -/
def arbiterRequest (h : HeadId) (low high age : Nat) (s : State) : State :=
  if free s.claims low high then grantClaim { head := h, low := low, high := high, age := age } s
  else { s with claims := s.claims.set h (.waiting low high age) }

/-- A withdrawal empties a WAITING entry without a pass, and is a release of a HELD one (R118). -/
def arbiterWithdraw (h : HeadId) (s : State) : State :=
  match s.claims.get h with
  | .empty => s
  | .waiting _ _ _ => { s with claims := s.claims.set h .empty }
  | .held _ _ => arbiterRelease h s

/-- The head's oldest message taken from its way to the arbiter. -/
def dropMsg (h : HeadId) (s : State) : State :=
  { s with claimMsgs := s.claimMsgs.set h (s.claimMsgs.get h).tail }

/-- CLAIM_REQUEST (R116): the arbiter takes the request that is the head's oldest message. -/
def execClaimRequest (h : HeadId) (s : State) : Host.Outcome State Fault Refusal :=
  finish (match s.claimMsgs.get h with
    | .request low high age :: _ => arbiterRequest h low high age (dropMsg h s)
    | .withdraw :: _ | .release :: _ | [] => s)

/-- CLAIM_WITHDRAW (R118): the arbiter takes the withdrawal that is the head's oldest message. -/
def execClaimWithdraw (h : HeadId) (s : State) : Host.Outcome State Fault Refusal :=
  finish (match s.claimMsgs.get h with
    | .withdraw :: _ => arbiterWithdraw h (dropMsg h s)
    | .request _ _ _ :: _ | .release :: _ | [] => s)

/-- CLAIM_RELEASE (R119): the arbiter takes the release that is the head's oldest message. -/
def execClaimRelease (h : HeadId) (s : State) : Host.Outcome State Fault Refusal :=
  finish (match s.claimMsgs.get h with
    | .release :: _ => arbiterRelease h (dropMsg h s)
    | .request _ _ _ :: _ | .withdraw :: _ | [] => s)

end Sys2Proof.Machine
end

