-- ==== Sys2Proof/Machine/Stroke.lean ====
section
/-! DEFINITION. What the head sequencer does whatever command brings it about (chapter 3, chapter 9):
outputs, stroke guard, rest, claims, the writes that close an order, halts, the end of an order before its
stroke, the steps of PREPARE that take no time, the start, and the top reference. -/

namespace Sys2Proof.Machine

/-! ## Outputs (section 3.1) -/

/-- Setpoint of a speed: times 4095, divided by the full-scale speed, rounded down, clamped (R48). -/
def setpointFor (speed full : Nat) : Nat := min 4095 (speed * 4095 / full)

/-- What a head sends to the press: setpoint, direction, brake. -/
structure Drive where
  setpoint : BitVec 12
  direction : Direction
  brake : Bool
deriving DecidableEq, Repr

/-- A driven ram. -/
def Drive.moving (speed full : Nat) (d : Direction) : Drive :=
  { setpoint := BitVec.ofNat 12 (setpointFor speed full), direction := d, brake := false }

/-- Setpoint 0 on the brake. -/
def Drive.still : Drive := { setpoint := 0, direction := .none, brake := true }

/-- Setpoint 0 with the brake released (R62, R64, R65). R48 gives DWELL the direction none; which direction goes
with setpoint 0 in PRESS after press end and in SEEK after the seek limit is not said: none (the model's choice, log
48). -/
def Drive.held : Drive := { setpoint := 0, direction := .none, brake := false }

/-- The speed an order gives, where there is an order. -/
def orderSpeed (o : Option Order) (f : Order → Nat) : Nat :=
  match o with
  | none => 0
  | some o => f o

/-- Outputs on entering a state (R48, R49). -/
def driveOf (o : Option Order) (full : Nat) : HeadState → Drive
  | .offline | .idle | .prepare | .zoneWait | .startWait | .halted => Drive.still
  | .approach => Drive.moving (orderSpeed o (·.approachSpeed)) full .down
  | .seek => Drive.moving (orderSpeed o (·.seekSpeed)) full .down
  | .press => Drive.moving (orderSpeed o (·.pressSpeed)) full .down
  | .dwell => Drive.held
  | .retract => Drive.moving (orderSpeed o (·.retractSpeed)) full .up
  | .recover => Drive.moving (full / 4) full .up

/-- A head's outputs set. -/
def Head.drive (d : Drive) (m : Head) : Head :=
  { m with setpoint := d.setpoint, direction := d.direction, brake := d.brake }

/-- The whole unit's outputs set (R74: the companion copies the primary). -/
def setDrive (d : Drive) (x : HeadId) (s : State) : State :=
  eachHead (fun h => modHead h (Head.drive d)) (s.unit x) s

/-- The whole unit enters a state with its outputs (R48, R74). -/
def enterState (st : HeadState) (x : HeadId) (s : State) : State :=
  setDrive (driveOf (s.head x).current (s.setup.fullScale.get x) st) x
    (eachHead (putState st) (s.unit x) s)

/-- The stroke guards of a unit armed, each with its own head's interval (R75, R79). -/
def armGuards (x : HeadId) (s : State) : State :=
  eachHead (fun h => modHead h (fun m =>
    { m with guardArmed := true, guardCount := s.setup.guardInterval.get h })) (s.unit x) s

/-- A guard disarmed stops where it stands (R79). -/
def Head.disarm (m : Head) : Head := { m with guardArmed := false }

/-- The stroke guards of a unit disarmed. -/
def disarmGuards (x : HeadId) (s : State) : State :=
  eachHead (fun h => modHead h Head.disarm) (s.unit x) s

/-! ## Rest -/

/-- The device is RUNNING and no abort is under way (R50, R174, log 11). -/
def State.running (s : State) : Bool := s.control.device = .running && !s.control.aborting

/-- The state a head comes to at the end of its order or rise (R50, R73). -/
def State.restState (s : State) (h : HeadId) : HeadState :=
  if s.setup.enabled h && (s.running || (s.control.device = .stopping && !s.control.aborting)) then .idle
  else .offline

/-- A head at rest: no order, marks cleared, on its brake (R47, R50). -/
def Head.rest (m : Head) : Head :=
  { m.drive Drive.still with
    current := none, gang := false, prep := .none, contactReached := false, guardArmed := false,
    dwell := none, atTop := false, startRead := none, releaseSeen := false, posLost := false }

/-- The reads and the write of an order that has not begun its stroke (R52, R53, R58, R60). -/
def Access.ofPrep (x : HeadId) : Access → Bool
  | .activeWrite h | .withdrawRead h | .nudgeRead h | .startRead h | .planRead h => h = x
  | .setupRead | .headerAll | .header _ | .linkRead | .orderFetch | .slotRead | .mapRead | .heldRead
  | .takenWrite | .rejectWrite | .stopWrite | .traceWrite _ | .outcomeWrite _ => false

/-- One head comes to rest: its plan is emptied (R19, R50). -/
def restHead (st : HeadState) (h : HeadId) (s : State) : State :=
  modHead h Head.rest (putState st h (setPlan h .empty s))

/-- The unit comes to rest, each of its heads in its own IDLE or OFFLINE, apart again (R50, R73, R74). -/
def goRest (st : HeadId → HeadState) (x : HeadId) (s : State) : State :=
  eachHead (fun h => restHead (st h) h) (s.unit x) (dropRequests (Access.ofPrep x) s)

/-! ## Claims (R57, R59, R67, R118, R119) -/

/-- A held claim is released, a request withdrawn; a head with neither sends nothing. -/
def letGo (x : HeadId) (s : State) : State :=
  let t := modHead x (fun m => { m with claim := .none }) s
  match (s.head x).claim with
  | .none => s
  | .requested => sendClaim x .withdraw t
  | .held => sendClaim x .release t

/-! ## The trace (section 9.4) -/

/-- Row size for a stroke of `tines` tines in all (R162). -/
def rowSizeOf (tines : Nat) : Nat := 4 + 4 * tines

/-- Tines of the tool or tools of a unit. -/
def State.unitTines (s : State) (x : HeadId) : Nat := ((s.unit x).map (fun h => (s.tool h).tines)).sum

/-- The row a sample makes (R46, R162). -/
def Sample.row (smp : Sample) : TraceRow := { depth := smp.depth, forces := smp.own ++ smp.companion }

/-- A row offered to the trace (R163). -/
def Trace.accept (o : Order) (row : TraceRow) (t : Trace) : Trace :=
  if o.traceArea = 0 || t.full then t
  else if (t.accepted + 1) * t.rowSize ≤ o.traceCapacity ∧ t.rows.length < 64 then
    { t with rows := t.rows ++ [row], accepted := t.accepted + 1 }
  else { t with full := true }

/-- Rows offered one after another. -/
def Trace.acceptAll (o : Order) : List TraceRow → Trace → Trace
  | [], t => t
  | r :: rs, t => Trace.acceptAll o rs (t.accept o r)

/-- Where the oldest row still held belongs in the area (R162). -/
def Trace.offset (o : Order) (t : Trace) : Nat := o.traceArea + (t.accepted - t.rows.length) * t.rowSize

/-- The bytes of every row held. -/
def Trace.bytes (t : Trace) : List Byte := (t.rows.map TraceRow.bytes).flatten

/-- The rows a completed write carried leave the buffer (R162). -/
def Trace.written (n : Nat) (t : Trace) : Trace := { t with rows := t.rows.drop n, inFlight := 0 }

/-- While the stroke runs and no trace write is in flight, one write of every row held (R162). -/
def kickTrace (x : HeadId) (s : State) : State :=
  let m := s.head x
  match m.current with
  | none => s
  | some o =>
    if m.closing.isNone && !m.writeFailed && m.trace.inFlight = 0 && !m.trace.rows.isEmpty then
      requestWrite (.traceWrite x) (m.trace.offset o) m.trace.bytes
        (modHead x (fun m => { m with trace := { m.trace with inFlight := m.trace.rows.length } }) s)
    else s

/-! ## Closing an order (sections 9.2, 9.3) -/

/-- A head has outcome writing in progress (R72). -/
def Head.writing (m : Head) : Bool := m.closing.isSome

/-- The writing noted at its stage. -/
def setClosing (x : HeadId) (c : Closing) (s : State) : State :=
  modHead x (fun m => { m with closing := some c }) s

/-- The device fields of an order closed by its head (R57, R160). -/
def State.fieldsOf (s : State) (x : HeadId) (c : Closing) : DeviceFields :=
  if c.stroke then
    { outcome := c.result.outcome
      reason := c.result.reason
      traceFull := (s.head x).trace.full
      withdrawSeen := false
      resultsWritten := true
      failed := c.result.failed
      notChecked := c.result.notChecked
      unjudged := c.result.unjudged
      overruns := (s.sense x).overruns
      contactDepth := c.contactDepth
      seatDepth := c.seatDepth
      peak := (s.sense x).peak
      traceBytes := (s.head x).trace.accepted * (s.head x).trace.rowSize }
  else DeviceFields.bare c.result.outcome c.result.reason

/-- Step 5: the status DONE (R161). -/
def putDone (x : HeadId) (c : Closing) (s : State) : State :=
  requestWrite (.outcomeWrite x) (statusOffset c.order.record) [statusDone]
    (setClosing x { c with stage := .done } s)

/-- Step 4: the device fields (R161). -/
def putFields (x : HeadId) (c : Closing) (s : State) : State :=
  requestWrite (.outcomeWrite x) (fieldsOffset c.order.record) (s.fieldsOf x c).bytes
    (setClosing x { c with stage := .fields } s)

/-- Step 3: the trace rows still held, when there are any (R161). -/
def putRows (x : HeadId) (c : Closing) (s : State) : State :=
  let t := (s.head x).trace
  if t.rows.isEmpty then putFields x c s
  else
    requestWrite (.outcomeWrite x) (t.offset c.order) t.bytes (setClosing x { c with stage := .rows } s)

/-- Step 2: result entry `i`, or what follows the last (R158, R161). -/
def putEntry (i : Nat) (x : HeadId) (c : Closing) (s : State) : State :=
  match c.result.entries[i]? with
  | none => putRows x c s
  | some e =>
    requestWrite (.outcomeWrite x) (c.order.resultArea + 16 * e.index) e.bytes
      (setClosing x { c with stage := .entry i } s)

/-- Step 1: a trace write in flight completes first (R161). -/
def beginClosing (x : HeadId) (c : Closing) (s : State) : State :=
  let s := modHead x (fun m => { m with outcomeFixed := true }) s
  if !c.stroke then putFields x c s
  else if (s.head x).trace.inFlight = 0 then putEntry 0 x c s
  else setClosing x { c with stage := .traceFlight } s

/-- An outcome without results, counts or depths (R57). -/
def HandOver.bare (outcome : OrderOutcome) (reason : Reason) : HandOver :=
  { outcome := outcome, reason := reason, failed := 0, notChecked := 0, unjudged := 0, entries := [] }

/-- The results writing of a stroke, with what the evaluator handed over (R66). -/
def beginResults (x : HeadId) (s : State) : State :=
  let m := s.head x
  match m.current with
  | none => s
  | some o =>
    beginClosing x
      { order := o
        result := m.handed.getD (HandOver.bare .aborted .none)
        contactDepth := m.contactDepth.getD 0
        seatDepth := m.pressEnd.getD 0
        stroke := true
        stage := .entry 0 } s

/-! ## Top reference (R67, R73, R74) -/

/-- A tool changed: TOOL and the live block at a change of tool state or a setting of WORN (R99, R165). -/
def changeTool (h : HeadId) (f : Tool → Tool) (s : State) : State :=
  let before := s.tool h
  let after := f before
  let s := modTool h (fun _ => after) s
  if before.state ≠ after.state ∨ (after.worn ∧ !before.worn) then
    requestPart (.live h) (raise .tool s)
  else s

/-- One head's share of a counted stroke (R67, R109, R111). -/
def countStroke (h : HeadId) (s : State) : State :=
  changeTool h Tool.countStroke
    (modSense h (fun n => { n with strokesSinceTare := min 255 (n.strokesSinceTare + 1) }) s)

/-- The unit's rams are at the top: claim released, stroke counted, rest, by each head's own enable bit (R67,
R73). -/
def finishTop (x : HeadId) (s : State) : State :=
  let counted := (s.head x).contactReached
  let s := letGo x s
  let s := if counted then eachHead countStroke (s.unit x) s else s
  goRest s.restState x s

/-- A head at its top reference holds there on its brake, its guard disarmed (R48, R74). Which direction goes with
its setpoint 0 is not said: none (the model's choice, log 48). -/
def holdTop (h : HeadId) (s : State) : State :=
  if s.ramTop h then modHead h (fun m => { (m.drive Drive.still).disarm with atTop := true }) s else s

/-- The unit leaves RETRACT or RECOVER when each of its heads has reached its top (R67, R73, R74). -/
def checkTop (x : HeadId) (s : State) : State :=
  let t := eachHead holdTop (s.unit x) s
  if (t.unit x).all (fun h => (t.head h).atTop) then finishTop x t else t

/-- Entry to RETRACT or RECOVER (R67, R73, log 31). -/
def rise (st : HeadState) (x : HeadId) (s : State) : State :=
  let s := armGuards x (enterState st x s)
  checkTop x (eachHead (fun h => modHead h (fun m => { m with atTop := false })) (s.unit x) s)

/-! ## Halts (section 3.6) -/

/-- A head enters HALTED (R49, R69): setpoint 0 and brake at the entry, guard and dwell timer stopped,
step trigger disarmed. -/
def haltHead (why : Reason) (h : HeadId) (s : State) : State :=
  modSense h Sense.disarm (modHead h (fun m =>
    { (m.drive Drive.still).disarm with
      dwell := none, startRead := none, releaseSeen := false, posLost := false })
    (putState .halted h (putHaltReason why h s)))

/-- The halt reaches the pin evaluator (R42, R43). -/
def haltPlan (why : Reason) (x : HeadId) (s : State) : State :=
  match s.plan x with
  | .built p =>
    match p.phase with
    | .closed => s
    | .armed | .live =>
      modHead x (fun m => { m with handed := some (p.haltClose why).2 })
        (setPlan x (.built (p.haltClose why).1) s)
  | .empty | .loading _ => s

/-- What a halted stroke is written with (R42, R43, R69). -/
def abortedClosing (why : Reason) (o : Order) (m : Head) : Closing :=
  { order := o
    result := { m.handed.getD (HandOver.bare .aborted why) with outcome := .aborted, reason := why }
    contactDepth := m.contactDepth.getD 0
    seatDepth := m.pressEnd.getD 0
    stroke := true
    stage := .entry 0 }

/-- The current order of a unit becomes none (R69, log 32). -/
def dropCurrent (x : HeadId) (s : State) : State :=
  eachHead (fun h => modHead h (fun m => { m with current := none })) (s.unit x) s

/-- The outcome of a halted stroke: ABORTED, unless an outcome is fixed or a write has failed (R69). -/
def haltOutcome (why : Reason) (x : HeadId) (s : State) : State :=
  let m := s.head x
  match m.current with
  | none => s
  | some o =>
    if m.writeFailed then s
    else if !m.outcomeFixed then beginClosing x (abortedClosing why o m) s
    else if m.writing then s
    else dropCurrent x s

/-- A halt in SEEK clears contact detection (R93). -/
def haltContact (x : HeadId) (s : State) : State :=
  if (s.head x).state = .seek then modSense x (fun n => { n with contact := Contact.cleared }) s else s

/-- A halt cause met by a unit in a motion state (R69, R75); `x` leads its unit. -/
def haltUnit (why : Reason) (x : HeadId) (s : State) : State :=
  haltOutcome why x (raise .halt
    (eachHead (haltHead why) (s.unit x) (haltPlan why x (haltContact x s))))

/-- A halt cause met by a unit, which halts it in the states `inStates` of R68 and has no effect in
others. -/
def haltIn (inStates : HeadState → Bool) (why : Reason) (x : HeadId) (s : State) : State :=
  if inStates (s.head x).state then haltUnit why x s else s

/-! ## An order ended before its stroke (R57, R58) -/

/-- The writes of R57, unless an outcome is already fixed or a write has failed. -/
def closeBefore (outcome : OrderOutcome) (reason : Reason) (x : HeadId) (s : State) : State :=
  let m := s.head x
  match m.current with
  | none => s
  | some o =>
    if m.outcomeFixed || m.writeFailed then s
    else
      beginClosing x
        { order := o, result := HandOver.bare outcome reason, contactDepth := 0, seatDepth := 0,
          stroke := false, stage := .fields } s

/-- What R58 ends with the order: bus requests, tares, plan build, claim. -/
def endWork (x : HeadId) (s : State) : State :=
  let s := dropRequests (Access.ofPrep x) s
  let s := eachHead (fun h => modSense h Sense.abandonTare) (s.unit x) s
  let s := match s.plan x with
    | .loading _ => setPlan x .empty s
    | .empty | .built _ => s
  let s := letGo x s
  modHead x (fun m => { m with prep := .none, startRead := none, releaseSeen := false, posLost := false }) s

/-- An order REFUSED or WITHDRAWN before its stroke; the head returns to IDLE when its report has been
made (R57). -/
def refuse (outcome : OrderOutcome) (reason : Reason) (x : HeadId) (s : State) : State :=
  closeBefore outcome reason x (endWork x s)

/-- An order STOPPED before its stroke; the unit goes to IDLE or OFFLINE at once (R58, log 12). So does a unit met
while it still writes REFUSED or WITHDRAWN, which keeps that outcome: R57 has it return at its report, and what a
stop between the two does is not said (the model's choice, log 40). -/
def stopBefore (reason : Reason) (st : HeadId → HeadState) (x : HeadId) (s : State) : State :=
  goRest st x (closeBefore .stopped reason x (endWork x s))

/-- A head in HALTED without motion, its plan emptied (R19, R71). -/
def haltStill (h : HeadId) (s : State) : State := haltHead .haltCmd h (setPlan h .empty s)

/-- An HCMD halt before the stroke (R58, R71): ABORTED, HALT_CMD, and HALTED without motion. -/
def haltBefore (x : HeadId) (s : State) : State :=
  raise .halt (eachHead haltStill (s.unit x) (closeBefore .aborted .haltCmd x (endWork x s)))

/-! ## PREPARE, steps 3 to 7 (R54 to R56, R111) -/

/-- Step 3's checks in order, each on every tool of the order, with what a failing one gives (R54). -/
def toolChecks (o : Order) (tools : List Tool) : List (Bool × Reason) :=
  [ (tools.all (fun t => t.state ≠ .absent), .toolAbsent),
    (tools.all (fun t => t.state ≠ .fault), .toolFault),
    (o.toolType = 0 || tools.all (fun t => t.toolType = o.toolType), .toolType),
    (tools.all (fun t => !(t.state = .ready && t.worn)), .toolWorn),
    (tools.all (fun t => tools.all (fun u => t.toolType = u.toolType)), .gangMismatch) ]

/-- Step 6 begins: the plan build reads the pin map's slot (R15). -/
def startPlan (x : HeadId) (s : State) : State :=
  match (s.head x).current with
  | none => s
  | some o =>
    requestRead (.planRead x) (slotOffset s.setup o.mapId) 4
      (setPlan x (.loading Build.start) (modHead x (fun m => { m with prep := .plan }) s))

/-- Step 5: a tare of each tool of the order whose tare is due, or step 6 at once (R55, R111). -/
def startTares (x : HeadId) (s : State) : State :=
  let due := (s.unit x).filter (fun h => (s.sense h).tareDue s.setup)
  if due.isEmpty then startPlan x s
  else
    eachHead (fun h => modSense h (Sense.startTare (s.tool h).tines)) due
      (modHead x (fun m => { m with prep := .tare }) s)

/-- Steps 3 to 5 (R54, R55): a tool in IDENTIFY makes the head wait; then the tool checks, RAM_TOP, tares. -/
def lookTools (x : HeadId) (s : State) : State :=
  match (s.head x).current with
  | none => s
  | some o =>
    let tools := (s.unit x).map s.tool
    if tools.any (fun t => t.state = .identify) then s
    else
      match firstFailing (toolChecks o tools) with
      | some why => refuse .refused why x s
      | none =>
        if (s.unit x).all s.ramTop then startTares x s else refuse .refused .ramNotTop x s

/-- Step 5 is complete when no tare of the order is in progress (R55, R112). -/
def taresDone (x : HeadId) (s : State) : State :=
  if (s.head x).prep = .tare && (s.unit x).all (fun h => (s.sense h).tare.isNone) then startPlan x s
  else s

/-- Entry to ZONE_WAIT (R58, R59, R115, R116): a tool then in FAULT refuses the order, else the claim is
asked for. -/
def enterZoneWait (x : HeadId) (s : State) : State :=
  let s := enterState .zoneWait x (modHead x (fun m => { m with prep := .none }) s)
  match (s.head x).current with
  | none => s
  | some o =>
    if (s.unit x).any (fun h => (s.tool h).state = .fault) then refuse .refused .toolFault x s
    else
      sendClaim x (.request (intervalLow s.setup.zoneMargin o.zoneFrom)
          (intervalHigh s.setup.zoneMargin o.zoneTo) o.age)
        (modHead x (fun m => { m with claim := .requested }) s)

/-- Step 7 (R56): some mapped channel is FAULTED, whatever the cause. -/
def State.mappedFault (s : State) (p : Plan) : Bool :=
  p.channels.any (fun c => s.channelFaulted c.head c.tine)

/-- The plan is complete: step 7, then ZONE_WAIT (R52, R56). -/
def planBuilt (x : HeadId) (p : Plan) (s : State) : State :=
  let s := setPlan x (.built p) s
  if s.mappedFault p then refuse .refused .channel x s else enterZoneWait x s

/-! ## The start (R60, R134) -/

/-- GUARD is closed and ESTOP inactive, POS_READY of every head of the unit asserted. -/
def State.startClear (s : State) (x : HeadId) : Bool :=
  !s.guardOpen && !s.estopActive && (s.unit x).all s.posReady

/-- The unit waits in START_WAIT with an order of a start mode, and reads no withdraw field for a start. -/
def Head.awaits (mode : StartMode) (m : Head) : Bool :=
  m.state = .startWait && !m.outcomeFixed && m.startRead.isNone &&
    (match m.current with
      | none => false
      | some o => o.startMode = mode)

/-- The withdraw read made on leaving START_WAIT; what the lines do from here to its end is noted (R60, R135). -/
def readForStart (byPair : Bool) (x : HeadId) (s : State) : State :=
  match (s.head x).current with
  | none => s
  | some o =>
    requestRead (.startRead x) (withdrawOffset o.record) 1
      (modHead x (fun m => { m with startRead := some byPair, releaseSeen := false, posLost := false }) s)

/-- An AUTO order leaves START_WAIT at the moment its three conditions hold together (R60). -/
def tryStart (x : HeadId) (s : State) : State :=
  if s.leads x && (s.head x).awaits .auto && s.startClear x then readForStart false x s else s

/-- A start event offered to a head (R134). -/
def offerStart (x : HeadId) (s : State) : State :=
  if s.leads x && (s.head x).awaits .operator && s.startClear x then readForStart true x s else s

/-- A head's sequencer at its entry to APPROACH: marks, trace and what the stroke fixes begin anew
(R61, R162, R163). -/
def Head.approach (byPair : Bool) (rowSize : Nat) (m : Head) : Head :=
  { m with
    startedByPair := byPair, startRead := none, releaseSeen := false, posLost := false, atTop := false,
    contactDepth := none, pressEnd := none, handed := none,
    trace := { Trace.reset with rowSize := rowSize } }

/-- Entry to APPROACH itself (R61, R80, R82, R85, R90, R94, R126). -/
def beginApproach (byPair : Bool) (x : HeadId) (s : State) : State :=
  let pitch := orderSpeed (s.head x).current (·.samplePitch)
  let rows := rowSizeOf (s.unitTines x)
  let s := dropRequests (Access.ofPrep x) s
  let s := armGuards x (enterState .approach x s)
  let s := eachHead (fun h => modHead h (Head.approach byPair rows)) (s.unit x) s
  eachHead (fun h => modSense h (Sense.approach (decide (h = x)) pitch)) (s.unit x) s

/-- Entry to APPROACH with the halts found there (R60, R68, R135): POS_READY fallen during the withdraw read or
not asserted now, or a START button released during that read; which of the two is taken first is open (R136,
log 10). -/
def enterApproach (byPair : Bool) (x : HeadId) (s : State) : State :=
  let lost := (s.head x).posLost || !(s.unit x).all s.posReady
  let released := byPair && (s.head x).releaseSeen
  let t := beginApproach byPair x s
  match lost, released with
  | false, false => t
  | true, false => haltUnit .positionLost x t
  | false, true => haltUnit .startReleased x t
  | true, true =>
    haltUnit (if Config.freeChoice t.choices % 2 = 0 then .positionLost else .startReleased) x
      { t with choices := t.choices + 1 }

/-! ## The report (R57, R66, R69, R153) -/

/-- Where the report leaves the unit: from a stroke into RETRACT, from before it to rest; a HALTED head
stays, without its order. -/
def afterReport (x : HeadId) (s : State) : State :=
  match (s.head x).state with
  | .seek | .press | .dwell => rise .retract x s
  | .prepare | .zoneWait | .startWait => goRest s.restState x s
  | .halted => dropCurrent x s
  | .offline | .idle | .approach | .retract | .recover => s

/-- The status DONE has been written: the head reports, the reader records (R66, R153). -/
def report (x : HeadId) (c : Closing) (s : State) : State :=
  afterReport x (recordOutcome c.order (modHead x (fun m => { m with closing := none }) s))

/-! ## What reaches every head -/

/-- An operation on every head that leads its unit. -/
def eachLead (f : HeadId → State → State) (s : State) : State :=
  eachHead (fun h t => if t.leads h then f h t else t) HeadId.all s

/-- An abort, ESTOP or device FAULT at one unit (R58, R68, R50). -/
def stopUnit (why : Reason) (x : HeadId) (s : State) : State :=
  let st := (s.head x).state
  if st.inMotion then haltUnit why x s
  else if st.beforeStroke then stopBefore why (fun _ => .offline) x s
  else if st = .idle then goRest (fun _ => .offline) x s
  else s

/-- The chain reader stopped, unless it stands STOPPED with nothing left of an earlier stop (R155,
R175). -/
def stopReader (why : Reason) (s : State) : State :=
  if s.reader.state = .stopped && s.reader.stopping.isNone then s else readerStop why s

/-- Run control carries a cause to every head and to the chain reader (R174 to R176). -/
def carry (why : Reason) (s : State) : State := stopReader why (eachLead (stopUnit why) s)

/-- A tool's state has changed: the head that waits in step 3 looks again, and a tool in FAULT refuses an
order in ZONE_WAIT or START_WAIT (R54, R58). -/
def toolSeen (h : HeadId) (s : State) : State :=
  let x := s.lead h
  let m := s.head x
  if m.prep = .tools then lookTools x s
  else if (m.state = .zoneWait || m.state = .startWait) && (s.tool h).state = .fault then
    refuse .refused .toolFault x s
  else s

end Sys2Proof.Machine
end

