-- ==== Sys2Proof/Machine/RunControl.lean ====
section
/-! DEFINITION. Run control (section 10.3): starting, running, stopping, abort, emergency stop, device fault,
and the rows that carry them. -/

namespace Sys2Proof.Machine

/-! ## Conditions -/

/-- Some head has outcome writing in progress (R72, R172). -/
def State.anyWriting (s : State) : Bool := HeadId.all.any (fun h => (s.head h).writing)

/-- A write for the stop is still outstanding at the chain reader (R155, R173, R174). Which chain part writes the
stop has begun is not said; any that waits or is in flight counts, one that only records a head's report (R153)
too (the model's choice, log 45). -/
def State.readerBusy (s : State) : Bool :=
  s.reader.stopping.isSome || s.reader.op.isWrite ||
    s.bus.any (fun r => r.access.readerWrite || r.access = .header .chain)

/-- A stroke's outcome, or ABORTED: what a head halted in the stop, or before it, may still be writing in STOPPED
(R173, R174, log 41). -/
def Closing.mayOutlast (c : Closing) : Bool := c.stroke || c.result.outcome = .aborted

/-- A head that no longer holds back the entry to STOPPED (R173, R174): it is in none of the states named, and
writes no outcome but one that a HALTED head may still be writing. -/
def Head.stopped (m : Head) : Bool :=
  !m.state.beforeStroke && !m.state.inStroke &&
    (match m.closing with
      | none => true
      | some c => m.state = .halted && c.mayOutlast)

/-- STOPPING, or an abort, is at its end (R173, R174). -/
def State.stopDone (s : State) : Bool :=
  (s.control.device = .stopping || (s.control.device = .running && s.control.aborting)) &&
    !s.readerBusy &&
    HeadId.all.all (fun h => (s.head h).stopped)

/-- Every write begun for a device fault has completed or failed (R176). Which writes were begun for the fault is
not said; every write at the bus and every head's outcome writing count, one begun before the fault or caused by a
later command too (the model's choice, log 46). -/
def State.faultQuiet (s : State) : Bool :=
  !s.readerBusy && !s.anyWriting && s.bus.all (fun r => r.access.isRead)

/-! ## Starting (R172) -/

/-- The writes that go to the taken area and may still be outstanding in STOPPED (R164, log 14). -/
def Access.ofOldArea : Access → Bool
  | .header _ | .takenWrite | .rejectWrite | .stopWrite => true
  | .setupRead | .headerAll | .linkRead | .orderFetch | .slotRead | .mapRead | .heldRead | .activeWrite _
  | .withdrawRead _ | .nudgeRead _ | .startRead _ | .planRead _ | .traceWrite _ | .outcomeWrite _ => false

/-- The taken area is no longer held (R164): what would still be written there is given up, by the header's
writers and by a chain reader whose stop has not ended (log 14). -/
def leaveArea (s : State) : State :=
  let s := modReader (fun r => { r with op := .none, stopping := none }) (dropRequests Access.ofOldArea s)
  modControl (fun c => { c with area := none }) { s with rewrite := RewriteMarks.reset }

/-- Entry to STARTING: the taken area is no longer held (log 14), setup error code NONE, base taken, the
setup block read. -/
def startNow (s : State) : State :=
  let base := s.control.abaseH ++ s.control.abaseL
  let s := setDevice .starting (leaveArea s)
  let s := modControl (fun c =>
    { c with setupError := 0, startBase := base, startGivenUp := false, startEstop := false }) s
  request .setupRead (base + 256) 256 [] s

/-- STOPPED with RUN at 1 goes on to STARTING as soon as no head has outcome writing in progress (R172, log 28); a
RUN at 1 that was written in STARTING, after the start had been given up, has no effect (R171). -/
def State.startDue (s : State) : Bool :=
  s.control.device = .stopped && s.control.run && !s.control.staleRun && !s.anyWriting

/-- The device enters STARTING when that is due (R172). -/
def startIfDue (s : State) : State := if s.startDue then startNow s else s

/-- The device leaves ESTOP at the first moment when RUN reads 0 and ESTOP is inactive (R175). -/
def estopExit (s : State) : State :=
  if s.control.device = .estop && !s.control.run && !s.estopActive then setDevice .stopped s else s

/-- The device leaves FAULT when RUN reads 0 and every write begun for the fault has ended (R176). -/
def faultExitIfDue (s : State) : State :=
  if s.control.device = .fault && !s.control.run && s.faultQuiet then setDevice .stopped s else s

/-- A start has been given up by RUN 0 or by ESTOP (R172, R175). -/
def State.startLost (s : State) : Bool := s.control.startEstop || s.control.startGivenUp

/-- The end of a start given up: ESTOP, or STOPPED (R172, R175). A RUN that reads 1 then makes no new start: only one
written 1 from here on does (R171, R172, R175). -/
def abandonStart (s : State) : State :=
  let estop := s.control.startEstop
  let s := modControl (fun c => { c with startEstop := false, startGivenUp := false, staleRun := c.run }) s
  if estop then estopExit (setDevice .estop s) else setDevice .stopped s

/-- The setup check has passed: steps 1 to 4 of R172. -/
def adoptSetup (c : Setup) (s : State) : State :=
  let s := modControl (fun k =>
    { k with area := some { base := k.startBase, size := c.areaSize }, setup := some c }) s
  let s := readerStart c s
  let s := { s with senses := s.senses.map Sense.deviceStart }
  requestWrite .headerAll 0 [] s

/-- The setup block as read (R141, R172, R177); a start already given up is not checked (log 15). -/
def setupFound (data : Option (List Byte)) (s : State) : State :=
  if s.control.device ≠ .starting then s
  else if s.startLost then abandonStart s
  else
    match checkSetup data with
    | .error code => setDevice .setupErr (modControl (fun c => { c with setupError := code }) s)
    | .ok c => adoptSetup c s

/-- SETUP_READ_DONE (R141). -/
def execSetupReadDone (data : Option (List Byte)) (s : State) : Host.Outcome State Fault Refusal :=
  finish (onComplete .setupRead (setupFound data) s)

/-- An identification read of a head is on the tool bus. -/
def State.identifyOnBus (s : State) (h : HeadId) : Bool :=
  match s.toolBus.transaction with
  | none => false
  | some t => t.head = h && !t.write

/-- The tool bus controller looks at a head's TOOL_PRESENT as STARTING completes (R98). -/
def lookPresent (h : HeadId) (s : State) : State :=
  if s.toolPresent h then
    let onBus := s.identifyOnBus h
    let s := changeTool h (Tool.restart onBus) s
    if onBus then
      { s with toolBus := { s.toolBus with
          transaction := s.toolBus.transaction.map (fun t => { t with discard := true }) } }
    else s
  else changeTool h Tool.startAbsent s

/-- An enabled head in OFFLINE enters IDLE (R50). -/
def wakeHead (h : HeadId) (s : State) : State :=
  if s.setup.enabled h && (s.head h).state = .offline then goRest (fun _ => .idle) h s else s

/-- The device enters RUNNING (R172). -/
def enterRunning (s : State) : State :=
  eachHead wakeHead HeadId.all
    (readerRun (eachHead lookPresent HeadId.all (setDevice .running s)))

/-- The whole-header write has completed (R172). -/
def startHeaderWritten (s : State) : State :=
  if s.control.device ≠ .starting then s else if s.startLost then abandonStart s else enterRunning s

/-- START_HEADER_WRITE_DONE (R172). -/
def execStartHeaderWriteDone (s : State) : Host.Outcome State Fault Refusal :=
  finish (onComplete .headerAll startHeaderWritten s)

/-- STARTING_ENTRY (R172). -/
def execStartingEntry (s : State) : Host.Outcome State Fault Refusal := finish (startIfDue s)

/-! ## Stopping (R173, R174) -/

/-- A device stop at one unit: an order before its stroke ends STOPPED, and the unit waits in IDLE (R58,
R173). -/
def stopUnitIdle (x : HeadId) (s : State) : State :=
  if (s.head x).state.beforeStroke then stopBefore .deviceStop s.restState x s else s

/-- RUN written 0 in RUNNING (R173). -/
def beginStopping (s : State) : State :=
  eachLead stopUnitIdle (stopReader .deviceStop (setDevice .stopping s))

/-- A head in IDLE goes to OFFLINE (R50). -/
def sleepHead (h : HeadId) (s : State) : State :=
  if (s.head h).state = .idle then goRest (fun _ => .offline) h s else s

/-- The device enters STOPPED at the end of a stop or an abort; with RUN at 1 it goes on to STARTING
(R173, R174). -/
def enterStopped (s : State) : State :=
  startIfDue (eachHead sleepHead HeadId.all
    (setDevice .stopped (modControl (fun c => { c with aborting := false, staleRun := false }) s)))

/-- STOP_COMPLETE (R173). -/
def execStopComplete (s : State) : Host.Outcome State Fault Refusal :=
  finish (if s.stopDone then enterStopped s else s)

/-- FAULT_EXIT (R176). -/
def execFaultExit (s : State) : Host.Outcome State Fault Refusal := finish (faultExitIfDue s)

/-- ABORT in RUNNING or STOPPING (R174, log 11). -/
def abortNow (s : State) : State :=
  carry .abortCmd (modControl (fun c => { c with run := false, aborting := true }) s)

/-- The effect of RUN as it has been written (R168, R171). A start given up in STARTING goes back when its access
has completed (R172), one that still waits at the arbiter too: it is granted and made first (the model's choice,
log 51). -/
def writeRun (run : Bool) (s : State) : State :=
  let s := modControl (fun c => { c with run := run, staleRun := false }) s
  match run, s.control.device with
  | true, .stopped => startIfDue s
  | true, .starting | true, .running | true, .stopping | true, .estop | true, .setupErr
  | true, .fault => s
  | false, .stopped | false, .stopping => s
  | false, .starting => modControl (fun c => { c with startGivenUp := true }) s
  | false, .running => if s.control.aborting then s else beginStopping s
  | false, .estop => estopExit s
  | false, .setupErr => setDevice .stopped s
  | false, .fault => faultExitIfDue s

/-! ## Emergency stop (R137, R175) -/

/-- ESTOP becomes active at run control: carried to heads and reader; the device enters ESTOP, in STARTING
when the access in flight has completed, or the one that waits at the arbiter (the model's choice, log 51). -/
def enterEstop (s : State) : State :=
  let s := carry .estop s
  match s.control.device with
  | .starting => modControl (fun c => { c with startEstop := true }) s
  | .estop => s
  | .stopped | .running | .stopping | .setupErr | .fault =>
    setDevice .estop (modControl (fun c => { c with aborting := false }) s)

/-! ## Device fault (R176) -/

/-- The accesses of a start (R172). -/
def Access.ofStart : Access → Bool
  | .setupRead | .headerAll => true
  | .header _ | .linkRead | .orderFetch | .slotRead | .mapRead | .heldRead | .takenWrite | .rejectWrite
  | .stopWrite | .activeWrite _ | .withdrawRead _ | .nudgeRead _ | .startRead _ | .planRead _ | .traceWrite _
  | .outcomeWrite _ => false

/-- A device fault: FAULT from every state but FAULT and ESTOP, carried to heads and reader; a start under way is
over, and what it has asked of the bus is given up. A start that ESTOP has met goes on to ESTOP. -/
def deviceFault (s : State) : State :=
  match s.control.device with
  | .fault | .estop => s
  | .stopped | .starting | .running | .stopping | .setupErr =>
    let s := setDevice .fault (modControl (fun c => { c with aborting := false })
      (dropRequests Access.ofStart s))
    let s := carry .fault s
    if s.control.startEstop then abandonStart s
    else modControl (fun c => { c with startGivenUp := false }) s

/-- The head whose write failed writes nothing more for that order and makes no report (R57, R66, R161,
R176, log 13). -/
def failOrder (x : HeadId) (s : State) : State :=
  let s := dropRequests (fun a => a = .traceWrite x || a = .outcomeWrite x || a = .activeWrite x) s
  modHead x (fun m => { m with closing := none, writeFailed := true }) s

/-- The block whose write failed makes no further write for that order or header part (R156, R176). -/
def writeLost (r : BusReq) (s : State) : State :=
  match r.access with
  | .header p => { s with rewrite := s.rewrite.put p false }
  | .takenWrite | .rejectWrite =>
    if r.fate = .live then modReader (fun k => { k with op := .none }) s else s
  | .stopWrite =>
    if r.fate = .live then
      match s.reader.op with
      | .stopFields age | .stopDone age => changeReader (fun k => { k.remove age with op := .none }) s
      | _ => s
    else s
  | .activeWrite h | .traceWrite h | .outcomeWrite h => failOrder h s
  | .setupRead | .headerAll | .linkRead | .orderFetch | .slotRead | .mapRead | .heldRead
  | .withdrawRead _ | .nudgeRead _ | .startRead _ | .planRead _ => s

/-- BUS_WRITE_ERROR (R176): the write in flight has failed. After a reset even that is discarded
(R178). -/
def execBusWriteError (s : State) : Host.Outcome State Fault Refusal :=
  finish (match s.bus with
    | [] => s
    | r :: rest =>
      if r.granted && !r.access.isRead then
        let s := { s with bus := rest }
        if r.fate = .orphaned then s else stopAdvance (deviceFault (writeLost r s))
      else s)

/-! ## Header parts (R165) -/

/-- A part's write has completed: one more when its rewrite mark is set. -/
def headerWritten (p : HeaderPart) (s : State) : State :=
  if s.rewrite.marked p then requestPart p { s with rewrite := s.rewrite.put p false } else s

/-- HEADER_WRITE_DONE (R165). -/
def execHeaderWriteDone (p : HeaderPart) (s : State) : Host.Outcome State Fault Refusal :=
  finish (onComplete (.header p) (headerWritten p) s)

end Sys2Proof.Machine
end

