-- ==== Sys2Proof/Machine/Operator.lean ====
section
/-! DEFINITION. Operator station and safety inputs (chapter 7): the two-hand pair, hold-to-run, GUARD, ESTOP,
and the POS_READY and RAM_TOP lines of the heads. The commands here are changes of debounced levels; a command
that changes no level has no effect (log 1). -/

namespace Sys2Proof.Machine

/-! ## The two-hand pair (R131 to R134) -/

/-- Some MASK input selected in the start mask select is active (R133). -/
def State.maskActive (s : State) : Bool :=
  HeadId.all.any (fun n => s.setup.startMask.getLsbD n.toNat && (s.inputs.masks.get n).level)

/-- A pair that completes is valid with GUARD closed and no selected MASK active; a valid pair gives one
start event, offered to every head (R133, R134). -/
def pairCompletes (s : State) : State :=
  if s.guardOpen || s.maskActive then s else eachLead offerStart s

/-- The pair set. -/
def setPair (p : Pair) (s : State) : State := modInputs (fun i => { i with pair := p }) s

/-- A press at the pair (R131): `both` when both buttons are pressed at the same sample. -/
def pairPress (bPressed both : Bool) (s : State) : State :=
  match s.inputs.pair with
  | .ready => if both then pairCompletes (setPair .spent s) else setPair (.oneDown bPressed 0) s
  | .oneDown _ window => if window ≤ 500 then pairCompletes (setPair .spent s) else setPair .spent s
  | .spent => s

/-- A release at the pair (R131, R132), `a` and `b` the levels after the sample. -/
def pairRelease (a b : Bool) (s : State) : State :=
  match s.inputs.pair with
  | .ready => s
  | .oneDown _ _ =>
    if a then setPair (.oneDown false 0) s
    else if b then setPair (.oneDown true 0) s
    else setPair .ready s
  | .spent => if !a && !b then setPair .ready s else s

/-- The debounced START levels after a sample (R128). -/
def setStarts (a b : Bool) (s : State) : State :=
  modInputs (fun i => { i with startA := i.startA.take a, startB := i.startB.take b }) s

/-- The debounced MASK levels of a sample (R133, log 34). -/
def setMasks (mask : BitVec 4) (s : State) : State :=
  modInputs (fun i => { i with
    masks := ⟨i.masks.a0.take (mask.getLsbD 0), i.masks.a1.take (mask.getLsbD 1),
      i.masks.a2.take (mask.getLsbD 2), i.masks.a3.take (mask.getLsbD 3)⟩ }) s

/-- START_PRESS (R131): the levels after the sample, of which none has fallen and one or both have
risen. -/
def execStartPress (a b : Bool) (mask : BitVec 4) (s : State) : Host.Outcome State Fault Refusal :=
  let a0 := s.inputs.startA.level
  let b0 := s.inputs.startB.level
  finish (if (a0 && !a) || (b0 && !b) || (a = a0 && b = b0) then s
    else pairPress (b && !b0) (a && !a0 && b && !b0) (setStarts a b (setMasks mask s)))

/-- A release offered to a head (R135). -/
def offerRelease (x : HeadId) (s : State) : State :=
  let m := s.head x
  if (m.state = .approach || m.state = .seek) && m.startedByPair then haltUnit .startReleased x s
  else if m.startRead = some true then modHead x (fun m => { m with releaseSeen := true }) s
  else s

/-- START_RELEASE (R131, R135): the levels after the sample, of which one or both have fallen. -/
def execStartRelease (a b : Bool) (s : State) : Host.Outcome State Fault Refusal :=
  finish (if (s.inputs.startA.level && !a) || (s.inputs.startB.level && !b) then
    eachLead offerRelease (pairRelease a b (setStarts a b s))
  else s)

/-- PAIR_WINDOW_EXPIRE (R132): the window has passed 500 ms. -/
def execPairWindowExpire (s : State) : Host.Outcome State Fault Refusal :=
  finish (match s.inputs.pair with
    | .ready | .spent => s
    | .oneDown _ window => if 500 < window then setPair .spent s else s)

/-! ## GUARD (R136) -/

/-- The debounced GUARD level. -/
def setGuard (level : Bool) (s : State) : State :=
  modInputs (fun i => { i with guard := Line.settle level }) s

/-- GUARD_OPEN (R136). -/
def execGuardOpen (s : State) : Host.Outcome State Fault Refusal :=
  finish (if s.guardOpen then s
    else eachLead (haltIn HeadState.inMotion .guard) (raise .safe (setGuard true s)))

/-- GUARD_CLOSE (R136). -/
def execGuardClose (s : State) : Host.Outcome State Fault Refusal :=
  finish (if s.guardOpen then eachLead tryStart (raise .safe (setGuard false s)) else s)

/-! ## ESTOP (R137, R138) -/

/-- The debounced ESTOP level. -/
def setEstop (level : Bool) (s : State) : State :=
  modInputs (fun i => { i with estop := Line.settle level }) s

/-- An assertion of ESTOP handed on to run control (R137). -/
def handOnEstop (s : State) : State := enterEstop (raise .safe s)

/-- ESTOP_ASSERT (R137). -/
def execEstopAssert (s : State) : Host.Outcome State Fault Refusal :=
  finish (if s.estopActive then s else handOnEstop (setEstop true s))

/-- ESTOP_RELEASE (R138). -/
def execEstopRelease (s : State) : Host.Outcome State Fault Refusal :=
  finish (if s.estopActive then estopExit (raise .safe (setEstop false s)) else s)

/-! ## POS_READY (R60, R68) -/

/-- A head's debounced POS_READY level. -/
def setPosReady (h : HeadId) (level : Bool) (s : State) : State :=
  modInputs (fun i => { i with posReady := i.posReady.set h (Line.settle level) }) s

/-- POS_READY_RISE (R60). -/
def execPosReadyRise (h : HeadId) (s : State) : Host.Outcome State Fault Refusal :=
  finish (if s.posReady h then s
    else
      let t := setPosReady h true s
      tryStart (t.lead h) t)

/-- A fall of POS_READY met by a unit: POSITION_LOST in APPROACH to RETRACT (R68); while the unit reads its
withdraw field for a start the fall is noted for the entry to APPROACH, also should the line rise again (R60). -/
def losePosition (x : HeadId) (s : State) : State :=
  if (s.head x).state.inStroke then haltUnit .positionLost x s
  else if (s.head x).startRead.isSome then modHead x (fun m => { m with posLost := true }) s
  else s

/-- POS_READY_FALL (R60, R68); a gang's line counts on either head (R75). -/
def execPosReadyFall (h : HeadId) (s : State) : Host.Outcome State Fault Refusal :=
  finish (if s.posReady h then losePosition (s.lead h) (setPosReady h false s) else s)

/-! ## RAM_TOP (R67, R73, R78, R113) -/

/-- A head's debounced RAM_TOP level. -/
def setRamTop (h : HeadId) (level : Bool) (s : State) : State :=
  modInputs (fun i => { i with ramTop := i.ramTop.set h (Line.settle level) }) s

/-- The states that end at the top reference. -/
def HeadState.rises : HeadState → Bool
  | .retract | .recover => true
  | .offline | .idle | .prepare | .zoneWait | .startWait | .approach | .seek | .press | .dwell
  | .halted => false

/-- RAM_TOP_RISE (R67, R78): the depth becomes 0, and RETRACT or RECOVER ends. An armed trigger that stands below
0 (APPROACH entered at a negative depth) is passed by this and fires nothing here, but at the next edge that moves
the depth downward; R80 knows moves of 1 µm alone (the model's choice, log 44). -/
def execRamTopRise (h : HeadId) (s : State) : Host.Outcome State Fault Refusal :=
  finish (if s.ramTop h then s
    else
      let t := modSense h (fun n => { n with depth := 0 }) (setRamTop h true s)
      let x := t.lead h
      if (t.head x).state.rises then checkTop x t else t)

/-- RAM_TOP_FALL (R78): a tare in progress is abandoned and the order REFUSED, RAM_NOT_TOP (R113). In a gang the
fall of either head's line reaches the primary, whose order the tare of either head serves (R75, R130). -/
def execRamTopFall (h : HeadId) (s : State) : Host.Outcome State Fault Refusal :=
  finish (if s.ramTop h then
    let t := setRamTop h false s
    if (t.unit h).any (fun k => (t.sense k).tare.isSome) then refuse .refused .ramNotTop (t.lead h) t else t
  else s)

end Sys2Proof.Machine
end

