-- ==== Sys2Proof/Machine/Prepare.lean ====
section
/-! DEFINITION. Taking an order, the steps of PREPARE that wait for the bus, the grant of the claim and the
start (sections 3.2 to 3.4, 1.4). -/

namespace Sys2Proof.Machine

/-! ## Taking (R51) -/

/-- A head with a new current order (R47, R51): marks cleared, step 1 of PREPARE. -/
def Head.take (o : Order) (m : Head) : Head :=
  { m with
    current := some o, gang := o.ganged, outcomeFixed := false, writeFailed := false,
    startedByPair := false, prep := .none }

/-- The unit takes an order: it enters PREPARE, and the status ACTIVE is requested (R51, R52). -/
def takeUp (x : HeadId) (o : Order) (s : State) : State :=
  let s := modReader (Reader.markWithHead o.age) s
  let s := eachHead (fun h => modHead h (Head.take o)) o.heads s
  let s := modHead x (fun m => { m with prep := .active }) s
  requestWrite (.activeWrite x) (statusOffset o.record) [statusActive] (enterState .prepare x s)

/-- The order a head may take now (R51): the front of its queue, which names the head; a ganged order is
taken by the primary, at the front of both queues with both heads IDLE. -/
def State.takeable (s : State) (h : HeadId) : Option Order :=
  if s.running && (s.head h).state = .idle then
    match s.reader.front h with
    | none => none
    | some o =>
      if o.head = h ∧ (o.ganged →
          h.even ∧ (s.head h.companion).state = .idle ∧
            (s.reader.front h.companion).map (·.age) = some o.age) then some o
      else none
  else none

/-- TAKE_ORDER (R51). -/
def execTakeOrder (h : HeadId) (s : State) : Host.Outcome State Fault Refusal :=
  finish (match s.takeable h with
    | none => s
    | some o => takeUp h o s)

/-! ## Steps 1, 2 and 6 (R52, R53, R56) -/

/-- The ACTIVE write has completed: step 2 reads the withdraw field. -/
def activeWritten (x : HeadId) (s : State) : State :=
  match (s.head x).current with
  | none => s
  | some o =>
    requestRead (.withdrawRead x) (withdrawOffset o.record) 1
      (modHead x (fun m => { m with prep := .withdraw }) s)

/-- ACTIVE_WRITE_DONE (R52). -/
def execActiveWriteDone (h : HeadId) (s : State) : Host.Outcome State Fault Refusal :=
  finish (onComplete (.activeWrite h) (activeWritten h) s)

/-- Step 2's read (R53): MEMORY on a bus error, WITHDRAWN when set, else step 3. -/
def withdrawFound (x : HeadId) (value : Option Byte) (s : State) : State :=
  match value with
  | none => refuse .refused .memory x s
  | some v =>
    if v = 0 then lookTools x (modHead x (fun m => { m with prep := .tools }) s)
    else refuse .withdrawn .none x s

/-- A NUDGE's read (R53): a bus error counts as 0; set ends the order WITHDRAWN. -/
def nudgeFound (x : HeadId) (value : Option Byte) (s : State) : State :=
  match value with
  | none => s
  | some v => if v ≠ 0 ∧ (s.head x).state.beforeStroke then refuse .withdrawn .none x s else s

/-- WITHDRAW_READ_DONE (R53): of step 2, or of a NUDGE. -/
def execWithdrawReadDone (h : HeadId) (value : Option Byte) (s : State) :
    Host.Outcome State Fault Refusal :=
  finish (if s.inFlight = some (.nudgeRead h) then onComplete (.nudgeRead h) (nudgeFound h value) s
  else onComplete (.withdrawRead h) (withdrawFound h value) s)

/-- A read of the plan build has completed (R15, R18, R56). -/
def planRead (x : HeadId) (data : Option (List Byte)) (s : State) : State :=
  if (s.head x).state = .prepare then
    match s.plan x, (s.head x).current with
    | .loading b, some o =>
      match data with
      | none => refuse .refused .memory x s
      | some d =>
        match b.advance s.setup o (s.tool x).tines (s.tool x.companion).tines d with
        | .fail why => refuse .refused why x s
        | .read b' off len => requestRead (.planRead x) off len (setPlan x (.loading b') s)
        | .complete p => planBuilt x p s
    | _, _ => s
  else s

/-- PLAN_READ_DONE (R15). -/
def execPlanReadDone (h : HeadId) (data : Option (List Byte)) (s : State) :
    Host.Outcome State Fault Refusal :=
  finish (onComplete (.planRead h) (planRead h data) s)

/-! ## Grant and start (R59, R60, R117) -/

/-- The grant concerns the order the head still waits for (R117, log 21). -/
def Head.wantsGrant (age : Nat) (m : Head) : Bool :=
  m.state = .zoneWait && m.claim = .requested &&
    (match m.current with
      | none => false
      | some o => o.age = age)

/-- CLAIM_GRANT (R117): START_WAIT with the claim held; a grant that crossed the end of its order is not
acted on. -/
def execClaimGrant (h : HeadId) (s : State) : Host.Outcome State Fault Refusal :=
  finish (match s.grants.get h with
    | none => s
    | some age =>
      let t := { s with grants := s.grants.set h none }
      if (t.head h).wantsGrant age then
        tryStart h (enterState .startWait h (modHead h (fun m => { m with claim := .held }) t))
      else t)

/-- The read made at the start condition (R60): MEMORY, WITHDRAWN, waiting on with GUARD open, or
APPROACH. -/
def startFound (x : HeadId) (value : Option Byte) (s : State) : State :=
  if (s.head x).state = .startWait then
    match value with
    | none => refuse .refused .memory x s
    | some v =>
      if v ≠ 0 then refuse .withdrawn .none x s
      else if s.guardOpen then
        modHead x (fun m => { m with startRead := none, releaseSeen := false, posLost := false }) s
      else enterApproach ((s.head x).startRead.getD false) x s
  else s

/-- START_WITHDRAW_READ_DONE (R60). -/
def execStartWithdrawReadDone (h : HeadId) (value : Option Byte) (s : State) :
    Host.Outcome State Fault Refusal :=
  finish (onComplete (.startRead h) (startFound h value) s)

end Sys2Proof.Machine
end

