-- ==== Sys2Proof/Machine/Results.lean ====
section
/-! DEFINITION. The writes that carry an order's results (chapter 9): trace writes during the stroke, and
the closing writes in their order. -/

namespace Sys2Proof.Machine

/-- A trace write has completed (R161, R162): its rows leave the buffer, and the closing goes on, or the next
write carries the rows that have arrived. -/
def traceWritten (x : HeadId) (s : State) : State :=
  let t := modHead x (fun m => { m with trace := m.trace.written m.trace.inFlight }) s
  match (t.head x).closing with
  | some c => if c.stage = .traceFlight then putEntry 0 x c t else t
  | none => kickTrace x t

/-- TRACE_WRITE_DONE (R162). -/
def execTraceWriteDone (h : HeadId) (s : State) : Host.Outcome State Fault Refusal :=
  finish (onComplete (.traceWrite h) (traceWritten h) s)

/-- A closing write has completed (R161): the next one, or the report. -/
def outcomeWritten (x : HeadId) (s : State) : State :=
  match (s.head x).closing with
  | none => s
  | some c =>
    match c.stage with
    | .traceFlight => s
    | .entry i => putEntry (i + 1) x c s
    | .rows =>
      putFields x c (modHead x (fun m => { m with trace := m.trace.written m.trace.rows.length }) s)
    | .fields => putDone x c s
    | .done => report x c s

/-- OUTCOME_WRITE_DONE (R161). -/
def execOutcomeWriteDone (h : HeadId) (s : State) : Host.Outcome State Fault Refusal :=
  finish (onComplete (.outcomeWrite h) (outcomeWritten h) s)

end Sys2Proof.Machine
end

