-- ==== Sys2Proof/Machine/ToolBus.lean ====
section
/-! DEFINITION. The tool bus controller (sections 5.1 to 5.4): attach and removal, the round of grants, the
checks of a reply, retries and failures, and the line's idle time. -/

namespace Sys2Proof.Machine

/-- A head's debounced TOOL_PRESENT level. -/
def setPresent (h : HeadId) (level : Bool) (s : State) : State :=
  modInputs (fun i => { i with toolPresent := i.toolPresent.set h (Line.settle level) }) s

/-- A tool changed, and the heads that watch it told when its state has changed (R54, R58, R99). -/
def moveTool (h : HeadId) (f : Tool → Tool) (s : State) : State :=
  let t := changeTool h f s
  if (s.tool h).state = (t.tool h).state then t else toolSeen h t

/-- TOOL_ATTACH (R96). -/
def execToolAttach (h : HeadId) (s : State) : Host.Outcome State Fault Refusal :=
  finish (if s.toolPresent h then s
    else moveTool h Tool.attach (modSense h Sense.toolAttach (setPresent h true s)))

/-- The line after a transaction has ended: idle from now, for `needed` µs before the next request (R100,
R103, R105). -/
def freeLine (needed : Nat) (s : State) : State :=
  { s with toolBus := { s.toolBus with transaction := none, idleNeeded := needed, idle := 0 } }

/-- A transaction of the head is on the bus. -/
def State.onToolBus (s : State) (h : HeadId) : Bool :=
  match s.toolBus.transaction with
  | none => false
  | some t => t.head = h

/-- A removal at the head's sequencer (R58, R68, R97). -/
def removalSeen (x : HeadId) (s : State) : State :=
  let st := (s.head x).state
  if st.inMotion then haltUnit .toolLost x s
  else if st.beforeStroke then refuse .refused .toolAbsent x s
  else s

/-- TOOL_REMOVAL (R97, R105): the tool ABSENT with its record cleared, the tare invalid, TOOL raised (log
35), a transaction of the head cut. -/
def execToolRemoval (h : HeadId) (s : State) : Host.Outcome State Fault Refusal :=
  finish (if s.toolPresent h then
    let t := setPresent h false s
    let t := if t.onToolBus h then freeLine 2000 t else t
    let t := modSense h (fun n => { n.abandonTare with tareValid := false }) t
    let t := raise .tool (changeTool h Tool.removal t)
    removalSeen (t.lead h) t
  else s)

/-! ## Grants (R104) -/

/-- A head's request is pending. -/
def Tool.pending (t : Tool) : Bool :=
  match t.request with
  | .none => false
  | .identify _ | .wearWrite => true

/-- The first head after the last granted whose request is pending (R104). -/
def State.nextToolHead (s : State) : Option HeadId :=
  let l := s.toolBus.lastGranted
  [l.next, l.next.next, l.next.next.next, l].find? (fun h => (s.tool h).pending)

/-- The wear write's data, taken at the grant of the first attempt and kept for the retries (R110). -/
def Tool.latchWear (t : Tool) : Tool :=
  { t with wearData := some (t.wearData.getD t.wearNow), wearGranted := true }

/-- The transaction of a head's request, with the frames sent (R101, R102, R106, R110). -/
def transactionOf (h : HeadId) (t : Tool) : Option Transaction :=
  match t.request with
  | .none => none
  | .identify b =>
    let p := b.place t.tines
    some { head := h, write := false, page := p.1, half := p.2, toggle := t.toggle,
           frames := readRequest h p.1 p.2 t.toggle, discard := false }
  | .wearWrite =>
    let w := t.wearData.getD t.wearNow
    some { head := h, write := true, page := w.page, half := false, toggle := t.toggle,
           frames := writeRequest h w.page false t.toggle (wearBlock w), discard := false }

/-- A head's request granted: its transaction is on the line. -/
def grantTool (h : HeadId) (s : State) : State :=
  let tr := transactionOf h (s.tool h)
  let s := match (s.tool h).request with
    | .wearWrite => modTool h Tool.latchWear s
    | .none | .identify _ => s
  { s with toolBus := { s.toolBus with lastGranted := h, transaction := tr, idle := 0 } }

/-- TOOL_BUS_GRANT (R104): `idle` is what the line has been idle, in µs, beyond what the periods of the filter
clock have counted (log 29). -/
def execToolBusGrant (idle : Nat) (s : State) : Host.Outcome State Fault Refusal :=
  finish (if s.toolBus.transaction.isNone && s.toolBus.idleNeeded ≤ s.toolBus.idle + idle then
    match s.nextToolHead with
    | none => s
    | some h => grantTool h s
  else s)

/-! ## Replies (R103) -/

/-- A reply's frames meet none of R103's failures. -/
def Transaction.succeeds (t : Transaction) (frames : List Frame) : Bool :=
  match frames with
  | [] => false
  | hd :: _ =>
    frames.all (fun f => !f.marker) &&
      frames.length = (if replyAck hd.data && !t.write then 18 else 2) &&
      frameSum frames = 0 && replyPage hd.data = t.page && replyHalf hd.data = t.half &&
      replyToggle hd.data = t.toggle && replyAck hd.data && (!t.write || replyComply hd.data)

/-- What a successful READ delivered. -/
def blockReply (frames : List Frame) : BlockReply :=
  { more := (frames.head?.map (fun f => replyMore f.data)).getD false
    data := (frames.tail.take 16).map (·.data) }

/-- A tool after a transaction that succeeded: the toggle flips, the retry count returns to 0, and the
request goes on (R103, R106, R110). -/
def Tool.succeeded (frames : List Frame) (t : Tool) : Tool :=
  let u := { t with toggle := !t.toggle, retries := 0 }
  match t.request with
  | .none => u
  | .identify b => u.identified b (blockReply frames)
  | .wearWrite => u.wearWritten

/-- A transaction has ended, with a reply that succeeded or without: the line, then the head's tool. An
identification whose reply is to be discarded is asked for afresh (R98, log 17). -/
def endTransaction (t : Transaction) (reply : Option (List Frame)) (s : State) : State :=
  let s := freeLine (if reply.isSome then 100 else 2000) s
  if t.discard then modTool t.head (Tool.queue (.identify .base)) s
  else
    match reply with
    | some frames => moveTool t.head (Tool.succeeded frames) s
    | none => moveTool t.head Tool.attemptFailed s

/-- TOOL_REPLY (R103): the frames that have come in answer to the transaction on the bus. -/
def execToolReply (frames : List Frame) (s : State) : Host.Outcome State Fault Refusal :=
  finish (match s.toolBus.transaction with
    | none => s
    | some t => endTransaction t (if t.succeeds frames then some frames else none) s)

/-- TOOL_REPLY_TIMEOUT (R103): the transaction fails. -/
def execToolReplyTimeout (s : State) : Host.Outcome State Fault Refusal :=
  finish (match s.toolBus.transaction with
    | none => s
    | some t => endTransaction t none s)

/-- FRAME_AFTER_FAILED_TRANSACTION (R103): the frame is ignored, and the line's idle time begins again. -/
def execFrameAfterFailedTransaction (_ : Frame) (s : State) : Host.Outcome State Fault Refusal :=
  finish (if s.toolBus.transaction.isNone && s.toolBus.idleNeeded = 2000 then freeLine 2000 s else s)

end Sys2Proof.Machine
end

