-- ==== Sys2Proof/Machine/Registers.lean ====
section
/-! DEFINITION. The register window (sections 10.1, 10.2, 11.8), the resets (R178) and the read that never
completes (R140). -/

namespace Sys2Proof.Machine

/-! ## Reads (R168, R180) -/

/-- IDN: vendor code, part code, revision 1 (section 11.8). -/
def idnWord : Word := 0x11B00C71#32

/-- STA (section 11.8). -/
def State.staWord (s : State) : Word :=
  BitVec.ofNat 32 (s.control.device.code + 16 * s.reader.state.code +
    256 * s.control.lastRefusal.code + 65536 * s.control.setupError.toNat +
    16777216 * s.control.resetCause.code)

/-- A read of the BAR at a register's offset returns what the register shows; it changes nothing. NUDGE and
HCMD, ABORT and RESET, and offsets beyond 0x23 read 0 (R168, R180). An offset inside a register reads 0 too (the
model's choice, log 43). -/
def readRegister (offset : Nat) (s : State) : Word :=
  if offset = 0x00 then idnWord
  else if offset = 0x04 then (if s.control.run then 1 else 0)
  else if offset = 0x08 then s.staWord
  else if offset = 0x0C then s.control.abaseL
  else if offset = 0x10 then s.control.abaseH
  else if offset = 0x18 then s.control.evt.setWidth 32
  else if offset = 0x1C then s.control.evten.setWidth 32
  else 0

/-! ## Resets (R178) -/

/-- The operator input unit after the first sample that follows a reset, the lines at the levels of the free
value's bits: each level is that sample's; the pair is READY with both buttons found released (R128, R129,
R132). -/
def Inputs.firstSample (free : Nat) : Inputs :=
  { startA := Line.settle (free.testBit 0), startB := Line.settle (free.testBit 1),
    guard := Line.settle (free.testBit 2), estop := Line.settle (free.testBit 3),
    masks := (bitsFrom free 4).map Line.settle, posReady := (bitsFrom free 8).map Line.settle,
    ramTop := (bitsFrom free 12).map Line.settle, toolPresent := (bitsFrom free 16).map Line.settle,
    pair := if free.testBit 0 || free.testBit 1 then .spent else .ready }

/-- The sense front-ends after the first filter sample that follows a reset, the encoder lines at the levels of
the free value's bits (R76). -/
def firstSenses (free : Nat) : Four Sense := Four.zipWith Sense.reset (bitsFrom free 0) (bitsFrom free 4)

/-- An ESTOP found active by its first sample is an assertion, handed on before anything else can happen: it finds
every head OFFLINE, with no order and no claim (R129, R137). -/
def handOnFirst (s : State) : State := if s.estopActive then handOnEstop s else s

/-- Every block in its reset state at once (R178), but for what stands outside the block: the queue, an access
already granted, and the model's own counters. The first samples after the reset are made at its end, and find
the pins at the levels of two free values (the model's choice, log 6). -/
def resetBlocks (encoders lines : Nat) (control : Control) (s : State) : State :=
  handOnFirst { State.reset with
    pending := s.pending, control := control, bus := orphanBus s.bus, stamp := s.stamp,
    choices := s.choices + 2, senses := firstSenses encoders, inputs := Inputs.firstSample lines }

/-- A reset that leaves run control so (R178). -/
def resetDevice (control : Control) (s : State) : State :=
  resetBlocks (Config.freeChoice s.choices) (Config.freeChoice (s.choices + 1)) control s

/-- HARDWARE_RESET (R178); the endpoint's configuration goes to its reset values (log 23). -/
def execHardwareReset (s : State) : Host.Outcome State Fault Refusal :=
  finish (resetDevice Control.reset s)

/-- SOFT_RESET (R178): a write to CTL with RESET 1, whatever else it carries; the endpoint's PCIe
configuration is kept. -/
def execSoftReset (_ : Word) (s : State) : Host.Outcome State Fault Refusal :=
  finish (resetDevice
    { Control.reset with
      resetCause := .soft, msiSelected := s.control.msiSelected, msiSent := s.control.msiSent,
      barBase := s.control.barBase } s)

/-! ## CTL (R168, R172 to R174) -/

/-- RUN_WRITTEN_1 (R172). -/
def execRunWritten1 (s : State) : Host.Outcome State Fault Refusal := finish (writeRun true s)

/-- RUN_WRITTEN_0 (R173). -/
def execRunWritten0 (s : State) : Host.Outcome State Fault Refusal := finish (writeRun false s)

/-- ABORT (R174): in RUNNING and STOPPING; in the other states ABORT is ignored and RUN takes the value
written (R168, R180). -/
def execAbort (run : Bool) (s : State) : Host.Outcome State Fault Refusal :=
  finish (match s.control.device with
    | .running | .stopping => abortNow s
    | .stopped | .starting | .estop | .setupErr | .fault => writeRun run s)

/-! ## ABASE, NUDGE, EVT, EVTEN (R151, R169, R170) -/

/-- A write to one of the ABASE registers: stored in STOPPED, refused BASE_LOCKED otherwise (R169). -/
def writeBase (f : Control → Control) (s : State) : State :=
  if s.control.device = .stopped then setRefusal .none (modControl f s) else setRefusal .baseLocked s

/-- ABASE_L_WRITE (R169); bits 0 to 11 are taken as 0 (R140). -/
def execAbaseLWrite (value : Word) (s : State) : Host.Outcome State Fault Refusal :=
  finish (writeBase (fun c => { c with abaseL := value &&& 0xFFFFF000#32 }) s)

/-- ABASE_H_WRITE (R169). -/
def execAbaseHWrite (value : Word) (s : State) : Host.Outcome State Fault Refusal :=
  finish (writeBase (fun c => { c with abaseH := value }) s)

/-- NUDGE at a head (R53, R151): in PREPARE, ZONE_WAIT and START_WAIT it reads its order's withdraw field
(log 25). -/
def nudgeHead (x : HeadId) (s : State) : State :=
  match (s.head x).current with
  | none => s
  | some o =>
    if (s.head x).state.beforeStroke then requestRead (.nudgeRead x) (withdrawOffset o.record) 1 s
    else s

/-- NUDGE (R151), of any value. -/
def execNudge (_ : Word) (s : State) : Host.Outcome State Fault Refusal :=
  finish (eachLead nudgeHead (readerNudge s))

/-- EVT_WRITE (R170). -/
def execEvtWrite (value : Word) (s : State) : Host.Outcome State Fault Refusal :=
  finish (modControl (·.clearEvents value) s)

/-- EVTEN_WRITE (R170). -/
def execEvtenWrite (value : Word) (s : State) : Host.Outcome State Fault Refusal :=
  finish (modControl (·.setEnables value) s)

/-! ## HCMD (R71, R72, R169) -/

/-- A HALTED unit meets an HCMD halt: the reason is set and HALT raised again (R70, R71). -/
def haltAgain (x : HeadId) (s : State) : State :=
  raise .halt (eachHead (putHaltReason .haltCmd) (s.unit x) s)

/-- HALT at a unit, by the state it meets (R71). -/
def hcmdHalt (h : HeadId) (s : State) : State :=
  let x := s.lead h
  match (s.head x).state with
  | .approach | .seek | .press | .dwell | .retract | .recover => haltUnit .haltCmd x s
  | .prepare | .zoneWait | .startWait => haltBefore x s
  | .idle | .offline => raise .halt (haltStill x s)
  | .halted => haltAgain x s

/-- HCMD_HALT (R71): always accepted. -/
def execHcmdHalt (h : HeadId) (s : State) : Host.Outcome State Fault Refusal :=
  finish (hcmdHalt h (setRefusal .none s))

/-- The first reason of R72 that refuses a RELEASE of a unit, or none. -/
def State.releaseRefusal (s : State) (x : HeadId) : RefusalCode :=
  let st := (s.head x).state
  if st ≠ .halted ∧ st ≠ .idle ∧ st ≠ .offline then .wrongState
  else if s.estopActive then .estopActive
  else if s.guardOpen then .guardOpen
  else if st ≠ .halted ∧ s.ramTop x then .atTop
  else if st = .halted ∧ (s.head x).writing then .outcomePending
  else .none

/-- RELEASE at a unit: judged by R72, and with no refusal entered into RECOVER (R73). -/
def hcmdRelease (h : HeadId) (s : State) : State :=
  let x := s.lead h
  let code := s.releaseRefusal x
  let s := setRefusal code s
  if code = .none then rise .recover x s else s

/-- HCMD_RELEASE (R72). -/
def execHcmdRelease (h : HeadId) (s : State) : Host.Outcome State Fault Refusal :=
  finish (hcmdRelease h s)

/-- A write to HCMD by its two fields (R169, R180): a head number above 3 or a command that is neither HALT
nor RELEASE reaches no head. -/
def hcmdWrite (head command : Byte) (s : State) : State :=
  match HeadId.ofNat? head.toNat with
  | none => setRefusal .badCommand s
  | some h =>
    if command = 1 then hcmdHalt h (setRefusal .none s)
    else if command = 2 then hcmdRelease h s
    else setRefusal .badCommand s

/-- BAD_COMMAND (R180). -/
def execBadCommand (head command : Byte) (s : State) : Host.Outcome State Fault Refusal :=
  finish (hcmdWrite head command s)

/-- REGISTER_WRITE_IGNORED (R168, R180): IDN, STA, and offsets beyond 0x23. -/
def execRegisterWriteIgnored (_ : IgnoredTarget) (_ : Word) (s : State) :
    Host.Outcome State Fault Refusal :=
  finish s

/-! ## A read without completion (R140) -/

/-- What a bus error on a read gives, by the block that reads (R18, R53, R60, R141, R143 to R148). -/
def readFailed : Access → State → State
  | .setupRead => setupFound none
  | .linkRead => linkFound none
  | .orderFetch => orderFetched none
  | .slotRead | .mapRead => tableRead none
  | .heldRead => heldRead none
  | .withdrawRead h => withdrawFound h none
  | .nudgeRead h => nudgeFound h none
  | .startRead h => startFound h none
  | .planRead h => planRead h none
  | .headerAll | .header _ | .takenWrite | .rejectWrite | .stopWrite | .activeWrite _ | .traceWrite _
  | .outcomeWrite _ => fun s => s

/-- BUS_READ_TIMEOUT (R140): the read in flight has had no completion within 50 ms. -/
def execBusReadTimeout (s : State) : Host.Outcome State Fault Refusal :=
  finish (match s.inFlight with
    | none => s
    | some a => if a.isRead then onComplete a (readFailed a) s else s)

end Sys2Proof.Machine
end

