-- ==== Sys2Proof/Machine/StrokeSteps.lean ====
section
/-! DEFINITION. The stroke (sections 3.5, 3.7, 4.1 to 4.7): accepted edges, the stroke guard, timed scans,
samples with the tests made on them, press end, the dwell and the tare's completion. -/

namespace Sys2Proof.Machine

/-! ## Accepted edges -/

/-- Whether an edge is an accepted edge of one line; a two-line jump is not (R77, R79). -/
def isAcceptedEdge : EncoderEdge → Bool
  | .lineA | .lineB => true
  | .both => false

/-- An accepted edge reloads an armed guard (R79). -/
def reloadGuard (edge : EncoderEdge) (h : HeadId) (s : State) : State :=
  let interval := s.setup.guardInterval.get h
  modHead h (fun m =>
    if m.guardArmed && isAcceptedEdge edge then { m with guardCount := interval } else m) s

/-- The depths of a gang differ by more than the gang skew limit (R75). -/
def State.skewed (s : State) (x : HeadId) : Bool :=
  s.setup.gangSkew < ((s.sense x.primary).depth - (s.sense x.companion).depth).natAbs

/-- The skew check: a gang from APPROACH until the first of its heads reaches its top (R75). -/
def skewCheck (x : HeadId) (s : State) : State :=
  let m := s.head x
  if m.gang && m.state.inStroke && (s.unit x).all (fun h => !(s.head h).atTop) && s.skewed x then
    haltUnit .skew x s
  else s

/-- An edge at a head (R77 to R80, R75). -/
def edgeAccepted (h : HeadId) (edge : EncoderEdge) (done : Converted) (s : State) : State :=
  let x := s.lead h
  let before := (s.sense h).depth
  let s := convertersDone x done s
  let s := modSense h (Sense.edge edge (s.ramTop h)) s
  let s := reloadGuard edge h s
  let s := if h = x then stepTrigger x (orderSpeed (s.head x).current (·.samplePitch)) before s else s
  skewCheck x s

/-- ACCEPTED_EDGE (R77). -/
def execAcceptedEdge (h : HeadId) (edge : EncoderEdge) (done : Converted) (s : State) :
    Host.Outcome State Fault Refusal :=
  finish (edgeAccepted h edge done s)

/-! ## Stroke guard -/

/-- The states in which STALL halts (R68). -/
def HeadState.stalls : HeadState → Bool
  | .approach | .seek | .press | .retract | .recover => true
  | .offline | .idle | .prepare | .zoneWait | .startWait | .dwell | .halted => false

/-- STROKE_GUARD_EXPIRE (R79): an armed guard stands at 0. -/
def execStrokeGuardExpire (h : HeadId) (s : State) : Host.Outcome State Fault Refusal :=
  finish (if (s.head h).guardArmed && (s.head h).guardCount = 0 then
    haltIn HeadState.stalls .stall (s.lead h) (modHead h Head.disarm s)
  else s)

/-! ## Timed scans -/

/-- A tare's timed scan begins (R83, R112): skipped when the converter is SCANNING, and has not converted its last
tine by now (`done`). -/
def tareScan (h : HeadId) (done : Bool) (s : State) : State :=
  if (s.sense h).scanning && !done then s
  else
    modSense h (fun n => { n with
      scanning := true
      firings := n.firings ++
        [{ kind := .tare, depth := n.depth, own := true, companion := false, discard := false }] }) s

/-- The head runs its unit's dwell, and the dwell timer runs (R65, R83). A tick lowers the timer before the scan
timer is looked at, so the tick that brings it to 0 starts no scan (the model's choice, log 38). -/
def State.dwelling (s : State) (h : HeadId) : Bool :=
  s.leads h && (s.head h).state = .dwell &&
    (match (s.head h).dwell with
      | none => false
      | some n => n ≠ 0)

/-- The tare of a head still wants scans (R112). -/
def State.taring (s : State) (h : HeadId) : Bool :=
  match (s.sense h).tare with
  | none => false
  | some t => decide (t.taken < tareScans s.setup)

/-- A tick of the scan timer that starts a timed scan (R83), `done` the converters that have converted their last
tine by then and are IDLE (R81). -/
def timedScan (h : HeadId) (done : Converted) (s : State) : State :=
  if s.taring h then tareScan h done.own s
  else if s.dwelling h then fireScan .dwell h (convertersDone h done s)
  else s

/-- A head's converter may be done while a firing waits for its partner's: one that has started both, its own tool
having the fewer tines (R81). -/
def State.mayFinishFirst (s : State) (h : HeadId) : Bool :=
  let tines := fun k => (s.tool k).tines
  (s.sense h.primary).firings.any (fun f => f.own && f.companion) &&
    (if h = h.primary then decide (tines h.primary < tines h.companion)
     else decide (tines h.companion < tines h.primary))

/-- Which converters have converted their last tine by a tick though their firing is not complete (R81): whether one
that may have has done so is a free value, since the model does not count the 2.5 µs of a conversion (log 8). -/
def State.convertedByTick (s : State) (h : HeadId) : Converted :=
  let early := Config.freeChoice s.choices % 2 = 1
  { own := early && s.mayFinishFirst h, companion := early && s.mayFinishFirst h.companion }

/-- TIMED_SCAN_TICK (R83). -/
def execTimedScanTick (h : HeadId) (s : State) : Host.Outcome State Fault Refusal :=
  finish (if s.taring h || s.dwelling h then
    timedScan h (s.convertedByTick h) { s with choices := s.choices + 1 }
  else s)

/-! ## Tests on samples (sections 3.5, 2.1) -/

/-- Overforce (R63): the sum force at or above the order's maximum, or some channel beyond ten times its
limit. -/
def State.overforce (s : State) (x : HeadId) (o : Order) (smp : Sample) : Bool :=
  decide (o.maxSumForce ≤ smp.sum) || overLimit (s.tool x).limits smp.own ||
    overLimit (s.tool x.companion).limits smp.companion

/-- The seat condition at a sample (R64); `history` already holds it. -/
def seatMet (o : Order) (history : List Sample) (smp : Sample) : Bool :=
  match o.seatMode with
  | .depth => decide (o.seatTarget ≤ smp.depth)
  | .force => decide (o.seatForce ≤ smp.sum)
  | .shoulder =>
    match shoulderRiseOf history with
    | none => false
    | some r => decide (o.shoulderRise ≤ r)

/-- The plan changed where it is complete. -/
def modPlan (x : HeadId) (f : Plan → Plan) (s : State) : State :=
  match s.plan x with
  | .built p => setPlan x (.built (f p)) s
  | .empty | .loading _ => s

/-- PIN_HALT has been asked for in this stroke (R31). -/
def State.pinHaltAsked (s : State) (x : HeadId) : Bool :=
  match s.plan x with
  | .built p => p.asked
  | .empty | .loading _ => false

/-- The evaluator marks the groups of FAULTED channels (R35, R89, log 20). -/
def markFaulted (x : HeadId) (s : State) : State := modPlan x (Plan.markFaults s.channelFaulted) s

/-- Rows of the samples the evaluator has taken, offered to the trace (R46, R163). -/
def addRows (x : HeadId) (o : Order) (smps : List Sample) (s : State) : State :=
  modHead x (fun m => { m with trace := m.trace.acceptAll o (smps.map Sample.row) }) s

/-- The evaluator takes a live sample, and its row goes to the trace (R25 to R33, R46). -/
def takeSample (x : HeadId) (o : Order) (smp : Sample) (s : State) : State :=
  addRows x o [smp] (modPlan x (Plan.take s.setup.settleLimit x smp) s)

/-! ## Press end (R39, R64) -/

/-- The evaluator closes and hands over, and the press-end depth is recorded (R39, R64). -/
def closePress (x : HeadId) (o : Order) (smp : Sample) (seated : Bool) (s : State) : State :=
  match s.plan x with
  | .built p =>
    modHead x (fun m =>
        { m with pressEnd := some smp.depth, handed := some (p.pressEnd smp.depth o.seatMode seated).2 })
      (setPlan x (.built (p.pressEnd smp.depth o.seatMode seated).1) s)
  | .empty | .loading _ => s

/-- The ram stopped with its brake released, guards and step trigger disarmed (R62, R64, R80); the direction sent
with setpoint 0 is the model's choice (log 48). -/
def stopRam (x : HeadId) (s : State) : State :=
  modSense x Sense.endTrigger (disarmGuards x (setDrive Drive.held x s))

/-- The press ends (R64): DWELL, or the results at once. -/
def endPress (x : HeadId) (o : Order) (smp : Sample) (seated : Bool) (s : State) : State :=
  let s := stopRam x (closePress x o smp seated s)
  if o.dwellTime = 0 then beginResults x s
  else modHead x (fun m => { m with dwell := some o.dwellTime }) (enterState .dwell x s)

/-- The tests of a sample of PRESS that neither overforce nor an earlier request has halted (R63, R64):
press end first, then a PIN_HALT request this sample has raised. -/
def pressTests (x : HeadId) (o : Order) (smp : Sample) (race : SampleRace) (s : State) : State :=
  let seated := seatMet o (s.sense x).history smp
  if seated || decide (o.pressLimit ≤ smp.depth) then endPress x o smp seated s
  else if s.pinHaltAsked x && race.requestArrives then haltUnit .pinHalt x s
  else s

/-- A sample of PRESS (R63): a PIN_HALT request still on its way may arrive first; overforce; then the
evaluator takes it and the other tests are made. -/
def pressSample (x : HeadId) (o : Order) (smp : Sample) (race : SampleRace) (s : State) : State :=
  let taken := markFaulted x (takeSample x o smp s)
  let before := if race.evaluatorFirst then taken else markFaulted x s
  if s.pinHaltAsked x && race.requestArrives then haltUnit .pinHalt x before
  else if s.overforce x o smp then haltUnit .overforce x before
  else pressTests x o smp race taken

/-! ## Contact and SEEK (R62, R93) -/

/-- The evaluator takes replayed samples, and their rows go to the trace (R24, R46). -/
def takeReplay (x : HeadId) (o : Order) (smps : List Sample) (s : State) : State :=
  addRows x o smps (modPlan x (fun p => p.replay s.setup.settleLimit x smps) s)

/-- How many samples of a replay of `n` the evaluator has taken when a PIN_HALT request asked at sample `asked`
(counted from 1) reaches the head: the whole replay, or any part of it that holds the asking sample (R31, log
9). -/
def replayCut (whole : Bool) (asked n free : Nat) : Nat :=
  if whole then n else asked + free % (n + 1 - asked)

/-- The place, counted from 1, of the replayed sample that asks for PIN_HALT, when one older than the confirming
sample does (R31). -/
def earlierAsk (settle : Nat) (x : HeadId) (replay : List Sample) (p : PlanState) : Option Nat :=
  match p with
  | .built p =>
    ((List.range replay.length).drop 1).find? (fun n => (p.replay settle x (replay.take n)).asked)
  | .empty | .loading _ => none

/-- Contact confirmed (R23, R24, R62): Dc fixed, the mark set, PRESS entered, the replay made, and the
confirming sample tested as the first sample of PRESS. R63 sets aside only a request of the sample that ends the
press: one asked by an older replayed sample halts when it reaches the head first, which the race says, and the
part of the replay the evaluator has then taken is free (log 9). -/
def confirmContact (x : HeadId) (o : Order) (smp : Sample) (race : SampleRace) (s : State) : State :=
  let dc := (s.sense x).contact.candidate.getD smp.depth
  let replay := replayOf dc (s.sense x).history
  let s := modHead x (fun m => { m with contactReached := true, contactDepth := some dc }) s
  let s := enterState .press x s
  let s := modPlan x (fun p => p.goLive dc) s
  match earlierAsk s.setup.settleLimit x replay (s.plan x) with
  | none => pressTests x o smp race (takeReplay x o replay s)
  | some n =>
    if race.requestArrives then
      let k := replayCut race.evaluatorFirst n replay.length (Config.freeChoice s.choices)
      haltUnit .pinHalt x (takeReplay x o (replay.take k) { s with choices := s.choices + 1 })
    else pressTests x o smp race (takeReplay x o replay s)

/-- The seek limit reached without contact (R44, R62): results at once, in SEEK. -/
def noContact (x : HeadId) (s : State) : State :=
  match s.plan x with
  | .built p =>
    beginResults x (stopRam x
      (modHead x (fun m => { m with handed := some p.noContact.2 }) (setPlan x (.built p.noContact.1) s)))
  | .empty | .loading _ => s

/-- A sample of SEEK (R62, R91): contact detection, then overforce, contact, the seek limit. -/
def seekSample (x : HeadId) (o : Order) (smp : Sample) (race : SampleRace) (s : State) : State :=
  let s := modSense x (fun n => { n with contact := n.contact.take s.setup smp.depth smp.sum }) s
  if s.overforce x o smp then haltUnit .overforce x s
  else if (s.sense x).contact.confirmed then confirmContact x o smp race s
  else if o.seekLimit ≤ smp.depth then noContact x s
  else s

/-- A sample of APPROACH (R61): at the approach end it is the first of SEEK; short of it, EARLY_CONTACT. -/
def approachSample (x : HeadId) (o : Order) (smp : Sample) (race : SampleRace) (s : State) : State :=
  if o.approachEnd ≤ smp.depth then
    seekSample x o smp race
      (modSense x (fun n => { n with contact := Contact.cleared }) (enterState .seek x s))
  else if s.setup.contactThreshold ≤ smp.sum then haltUnit .earlyContact x s
  else s

/-! ## The sample is handed on (R91) -/

/-- A step-triggered sample: history, then the head's tests by its state (R91, R94); then the trace write of R162,
if the stroke still runs. A sample that ends the stroke at once, by a halt or by press end with no dwell, leaves its
row to step 3 of R161; whether R162 has it written before the entries is not said (the model's choice, log 49). -/
def stepSample (x : HeadId) (smp : Sample) (race : SampleRace) (s : State) : State :=
  let s := modSense x (fun n => { n with history := addHistory n.history smp }) s
  match (s.head x).current with
  | none => s
  | some o =>
    match (s.head x).state with
    | .approach => kickTrace x (approachSample x o smp race (markFaulted x s))
    | .seek => kickTrace x (seekSample x o smp race (markFaulted x s))
    | .press => kickTrace x (pressSample x o smp race s)
    | .offline | .idle | .prepare | .zoneWait | .startWait | .dwell | .retract | .halted | .recover => s

/-- The states of which every sample is tested for overforce (R62, R63, R65). -/
def HeadState.underForce : HeadState → Bool
  | .seek | .press | .dwell => true
  | .offline | .idle | .prepare | .zoneWait | .startWait | .approach | .retract | .halted | .recover => false

/-- Overforce and nothing else: a DWELL timed sample (R65, R83), and one of a trigger disarmed since (log 18). -/
def forceTest (x : HeadId) (smp : Sample) (s : State) : State :=
  match (s.head x).current with
  | none => s
  | some o =>
    if (s.head x).state.underForce && s.overforce x o smp then haltUnit .overforce x s else s

/-- A sample of a trigger disarmed since (log 18). In SEEK it is still kept in the history and given to contact
detection, whose finding the ended stroke no longer takes (R62); after press end the history keeps its last contents
(R94). -/
def lateSample (x : HeadId) (smp : Sample) (s : State) : State :=
  forceTest x smp (if (s.head x).state = .seek then
    modSense x (fun n => { n with
      history := addHistory n.history smp
      contact := n.contact.take s.setup smp.depth smp.sum }) s
  else s)

/-- The scans of the oldest firing have finished (R81, R83, R91, R112): a tare gets the raw readings, every other
firing makes its sample. -/
def scanFinished (x : HeadId) (own companion : List Raw) (race : SampleRace) (s : State) : State :=
  match (s.sense x).firings with
  | [] => s
  | f :: rest =>
    let s := endFiring x f rest s
    if f.discard then s
    else
      match f.kind with
      | .tare => modSense x (fun n => { n with tare := n.tare.map (Tare.addScan own) }) s
      | .step =>
        let r := makeSample x f own companion (s.head x).contactReached s
        stepSample x r.1 race r.2
      | .dwell =>
        let r := makeSample x f own companion (s.head x).contactReached s
        forceTest x r.1 r.2
      | .late =>
        let r := makeSample x f own companion (s.head x).contactReached s
        lateSample x r.1 r.2

/-- SCAN_COMPLETE (R91). -/
def execScanComplete (h : HeadId) (own companion : List Raw) (race : SampleRace) (s : State) :
    Host.Outcome State Fault Refusal :=
  finish (scanFinished h own companion race s)

/-! ## The dwell and the tare -/

/-- DWELL_EXPIRE (R65): the dwell timer stands at 0. -/
def execDwellExpire (h : HeadId) (s : State) : Host.Outcome State Fault Refusal :=
  finish (if (s.head h).state = .dwell && (s.head h).dwell = some 0 then
    beginResults h (modHead h (fun m => { m with dwell := none }) s)
  else s)

/-- The tare of a head settled: channels judged, tare valid, strokes since tare 0 (R112). -/
def settleTare (h : HeadId) (t : Tare) (s : State) : State :=
  let r := settleTares s.setup.tareOffsetLimit (tareScans s.setup) t.sums (s.sense h).channels
  let s := modSense h (fun n =>
    { n with channels := r.1, tareValid := true, strokesSinceTare := 0, tare := none }) s
  if r.2 then raise .chwarn s else s

/-- TARE_COMPLETE (R112): the last scan of a tare has been taken. -/
def execTareComplete (h : HeadId) (s : State) : Host.Outcome State Fault Refusal :=
  finish (match (s.sense h).tare with
    | none => s
    | some t => if tareScans s.setup ≤ t.taken then taresDone (s.lead h) (settleTare h t s) else s)

end Sys2Proof.Machine
end

