-- ==== Sys2Proof/Machine/Clock.lean ====
section
/-! DEFINITION. What the block does with no command waiting (log 2): first the steps of its own that are
due, put into the queue; when none is, one period of the 1 MHz filter clock (R76), which counts the tool bus's idle
time too (R100, R103, R105), and with every thousandth one tick of the 1 ms timebase (R79, R83, R112, R128 to R132,
R150). -/

namespace Sys2Proof.Machine

/-! ## Steps that are due -/

/-- One command, when it is due. -/
def dueIf (b : Bool) (i : Instr) : List Instr := if b then [i] else []

/-- Three successive samples have shown the other level (R128). -/
def Line.changed (l : Line) : Bool := l.raw ≠ l.level && 3 ≤ l.count

/-- ESTOP becomes active at the first sample that shows it (R129). -/
def Line.asserted (l : Line) : Bool := l.raw && !l.level && 1 ≤ l.count

/-- The level a line has after a sample (R128). -/
def Line.sampled (l : Line) : Bool := if l.changed then l.raw else l.level

/-- The debounced MASK levels as they stand. -/
def Inputs.maskBits (i : Inputs) : BitVec 4 :=
  BitVec.ofNat 4 (bit i.masks.a0.level 0 + bit i.masks.a1.level 1 + bit i.masks.a2.level 2 +
    bit i.masks.a3.level 3)

/-- Changes of the shared lines (R128 to R131). A sample at which a button is released is one
START_RELEASE, with what else it brought at the other button. -/
def Inputs.due (i : Inputs) : List Instr :=
  let a := i.startA.sampled
  let b := i.startB.sampled
  let falls := (i.startA.level && !a) || (i.startB.level && !b)
  let rises := (!i.startA.level && a) || (!i.startB.level && b)
  dueIf i.estop.asserted .estopAssert ++
  dueIf (i.estop.changed && !i.estop.raw) .estopRelease ++
  dueIf (i.guard.changed && i.guard.raw) .guardOpen ++
  dueIf (i.guard.changed && !i.guard.raw) .guardClose ++
  dueIf falls (.startRelease a b) ++
  dueIf (rises && !falls) (.startPress a b i.maskBits)

/-- Changes of a head's lines (R130). -/
def Inputs.dueAt (i : Inputs) (h : HeadId) : List Instr :=
  let pos := i.posReady.get h
  let top := i.ramTop.get h
  let tool := i.toolPresent.get h
  dueIf (pos.changed && pos.raw) (.posReadyRise h) ++ dueIf (pos.changed && !pos.raw) (.posReadyFall h) ++
  dueIf (top.changed && top.raw) (.ramTopRise h) ++ dueIf (top.changed && !top.raw) (.ramTopFall h) ++
  dueIf (tool.changed && tool.raw) (.toolAttach h) ++
  dueIf (tool.changed && !tool.raw) (.toolRemoval h)

/-- The pair window has passed 500 ms (R131). -/
def Pair.expired : Pair → Bool
  | .ready | .spent => false
  | .oneDown _ window => 500 < window

/-- What is due at a head: its guard, its dwell, its tare, its messages to the arbiter and the grant on its
way, an order to take (R51, R65, R79, R112, R116 to R119). -/
def State.dueAt (s : State) (h : HeadId) : List Instr :=
  s.inputs.dueAt h ++
  dueIf ((s.head h).guardArmed && (s.head h).guardCount = 0) (.strokeGuardExpire h) ++
  dueIf ((s.head h).state = .dwell && (s.head h).dwell = some 0) (.dwellExpire h) ++
  dueIf ((s.sense h).tare.isSome && !s.taring h) (.tareComplete h) ++
  (match s.claimMsgs.get h with
    | [] => []
    | .request _ _ _ :: _ => [.claimRequest h]
    | .withdraw :: _ => [.claimWithdraw h]
    | .release :: _ => [.claimRelease h]) ++
  dueIf (s.grants.get h).isSome (.claimGrant h) ++
  dueIf (s.takeable h).isSome (.takeOrder h)

/-- The commands that are due of themselves. -/
def State.due (s : State) : List Instr :=
  s.inputs.due ++ (HeadId.all.map s.dueAt).flatten ++
  dueIf s.inputs.pair.expired .pairWindowExpire ++
  dueIf (s.reader.state = .waiting && s.reader.poll = some 0) .pollTimerExpire ++
  dueIf s.stopDone .stopComplete ++
  dueIf (s.control.device = .fault && !s.control.run && s.faultQuiet) .faultExit ++
  dueIf s.startDue .startingEntry ++
  dueIf (s.toolBus.transaction.isNone && s.toolBus.idleNeeded ≤ s.toolBus.idle && s.nextToolHead.isSome)
    (.toolBusGrant 0)

/-! ## The filter clock (R76) -/

/-- The filter sample of one head's encoder lines, found at the levels of the free value's first eight bits; the
filter runs whatever the head state. -/
def filterHead (free : Nat) (h : HeadId) (s : State) : State :=
  modSense h (fun n => (n.filter ((bitsFrom free 0).get h) ((bitsFrom free 4).get h)).1) s

/-- The edge one head's filter accepts at that sample, with the converters that have finished by then (log 8). -/
def State.edgesAt (s : State) (free : Nat) (h : HeadId) : List Instr :=
  match ((s.sense h).filter ((bitsFrom free 0).get h) ((bitsFrom free 4).get h)).2 with
  | none => []
  | some e => [.acceptedEdge h e ⟨(bitsFrom free 8).get h, (bitsFrom free 12).get h⟩]

/-- The tool bus line's idle time counted in µs, up to the 2 ms that is all a rule asks for (R100, R103,
R105). -/
def ToolBus.idled (b : ToolBus) : ToolBus :=
  match b.transaction with
  | none => { b with idle := min 2000 (b.idle + 1) }
  | some _ => b

/-- One period of the 1 MHz filter clock: every head's lines are sampled, the edges accepted are queued, and
the tool bus has been idle for 1 µs more. -/
def filterPeriod (free : Nat) (s : State) : State :=
  { eachHead (filterHead free) HeadId.all s with
    toolBus := s.toolBus.idled, pending := (HeadId.all.map (s.edgesAt free)).flatten }

/-! ## The tick -/

/-- A line's sample at a raw level: the count of equal samples that differ from the debounced level (R128,
R129). -/
def Line.sample (l : Line) (raw : Bool) : Line :=
  { l with raw := raw, count := if raw = l.level then 0 else min 3 (l.count + 1) }

/-- A MASK line's sample; its change goes to no block (R130). -/
def Line.sampleMask (l : Line) (raw : Bool) : Line :=
  let m := l.sample raw
  if m.changed then { m with level := m.raw, count := 0 } else m

/-- The pair window counted in samples (R131). -/
def Pair.tick : Pair → Pair
  | .oneDown bFirst window => .oneDown bFirst (window + 1)
  | .ready => .ready
  | .spent => .spent

/-- Every line sampled at the levels of the free value's bits, the pair window counted (R128, R131). -/
def Inputs.tick (free : Nat) (i : Inputs) : Inputs :=
  { startA := i.startA.sample (free.testBit 0), startB := i.startB.sample (free.testBit 1),
    guard := i.guard.sample (free.testBit 2), estop := i.estop.sample (free.testBit 3),
    masks := Four.zipWith Line.sampleMask i.masks (bitsFrom free 4),
    posReady := Four.zipWith Line.sample i.posReady (bitsFrom free 8),
    ramTop := Four.zipWith Line.sample i.ramTop (bitsFrom free 12),
    toolPresent := Four.zipWith Line.sample i.toolPresent (bitsFrom free 16),
    pair := i.pair.tick }

/-- A down-counter lowered, where it runs. -/
def lower (n : Option Nat) : Option Nat := n.map (· - 1)

/-- A head's counters lowered (R65, R79). -/
def Head.tick (m : Head) : Head :=
  { m with guardCount := if m.guardArmed then m.guardCount - 1 else m.guardCount, dwell := lower m.dwell }

/-- The poll timer lowered while the reader is WAITING (R150). -/
def Reader.tick (r : Reader) : Reader :=
  if r.state = .waiting then { r with poll := lower r.poll } else r

/-- The timed scans of a tick: in DWELL and during a tare (R83). -/
def State.timedScans (s : State) : List Instr :=
  (HeadId.all.map (fun h => dueIf (s.taring h || s.dwelling h) (.timedScanTick h))).flatten

/-- The stroke guards at 0 whose tick is taken before an edge of the same moment, by the free value's bits from 20
on (R79). -/
def State.guardsFirst (s : State) (free : Nat) : List Instr :=
  (HeadId.all.map (fun h => dueIf
    ((s.head h).guardArmed && (s.head h).guardCount = 0 && (bitsFrom free 20).get h)
    (.strokeGuardExpire h))).flatten

/-- One tick of the 1 ms timebase, the lines at the levels of the free value; its timed scans join the queue. A
guard it brings to 0 expires before the period's edges or is left to them, and to `State.due` after them, as the
free value has it: R79 allows both (log 47). The timed scans come after the edges of the same period, so the sample
depth of a scan of DWELL, R83's depth at its tick, is that after such an edge (the model's choice, log 53). -/
def tick (free : Nat) (s : State) : State :=
  let t := { s with
    heads := s.heads.map Head.tick, reader := s.reader.tick, inputs := s.inputs.tick free }
  { t with pending := t.guardsFirst free ++ t.pending ++ t.timedScans }

/-- One period of the filter clock, which every thousandth time is a tick of the timebase too (log 2); two free
values are the levels of the pins, one of the encoders' and one of the lines'. The edges accepted in it are taken
after its tick has lowered the guards, so a guard they reload is not lowered by it (the model's choice, log 47). -/
def period (encoders lines : Nat) (s : State) : State :=
  let t := { filterPeriod encoders s with choices := s.choices + 2 }
  if s.micros + 1 < 1000 then { t with micros := s.micros + 1 } else tick lines { t with micros := 0 }

/-- The block with no command waiting (log 2): the steps that are due, or one period of the filter clock. -/
def idleStep (s : State) : State :=
  match s.due with
  | [] => period (Config.freeChoice s.choices) (Config.freeChoice (s.choices + 1)) s
  | i :: more => { s with pending := i :: more }

end Sys2Proof.Machine
end

