-- ==== Sys2Proof/Machine/Dispatch.lean ====
section
/-! DEFINITION. One arm for each command of the table. -/

namespace Sys2Proof.Machine

def exec (i : Instr) (s : State) : Host.Outcome State Fault Refusal :=
  match i with
  | .hardwareReset => Sys2Proof.Machine.execHardwareReset s
  | .softReset rest => Sys2Proof.Machine.execSoftReset rest s
  | .runWritten1 => Sys2Proof.Machine.execRunWritten1 s
  | .runWritten0 => Sys2Proof.Machine.execRunWritten0 s
  | .abort run => Sys2Proof.Machine.execAbort run s
  | .abaseLWrite value => Sys2Proof.Machine.execAbaseLWrite value s
  | .abaseHWrite value => Sys2Proof.Machine.execAbaseHWrite value s
  | .nudge value => Sys2Proof.Machine.execNudge value s
  | .evtWrite value => Sys2Proof.Machine.execEvtWrite value s
  | .evtenWrite value => Sys2Proof.Machine.execEvtenWrite value s
  | .hcmdHalt h => Sys2Proof.Machine.execHcmdHalt h s
  | .hcmdRelease h => Sys2Proof.Machine.execHcmdRelease h s
  | .badCommand head command => Sys2Proof.Machine.execBadCommand head command s
  | .registerWriteIgnored target value => Sys2Proof.Machine.execRegisterWriteIgnored target value s
  | .acceptedEdge h edge done => Sys2Proof.Machine.execAcceptedEdge h edge done s
  | .strokeGuardExpire h => Sys2Proof.Machine.execStrokeGuardExpire h s
  | .timedScanTick h => Sys2Proof.Machine.execTimedScanTick h s
  | .scanComplete h own companion race => Sys2Proof.Machine.execScanComplete h own companion race s
  | .dwellExpire h => Sys2Proof.Machine.execDwellExpire h s
  | .guardOpen => Sys2Proof.Machine.execGuardOpen s
  | .guardClose => Sys2Proof.Machine.execGuardClose s
  | .estopAssert => Sys2Proof.Machine.execEstopAssert s
  | .estopRelease => Sys2Proof.Machine.execEstopRelease s
  | .startPress a b mask => Sys2Proof.Machine.execStartPress a b mask s
  | .startRelease a b => Sys2Proof.Machine.execStartRelease a b s
  | .pairWindowExpire => Sys2Proof.Machine.execPairWindowExpire s
  | .posReadyRise h => Sys2Proof.Machine.execPosReadyRise h s
  | .posReadyFall h => Sys2Proof.Machine.execPosReadyFall h s
  | .ramTopRise h => Sys2Proof.Machine.execRamTopRise h s
  | .ramTopFall h => Sys2Proof.Machine.execRamTopFall h s
  | .toolAttach h => Sys2Proof.Machine.execToolAttach h s
  | .toolRemoval h => Sys2Proof.Machine.execToolRemoval h s
  | .toolBusGrant idle => Sys2Proof.Machine.execToolBusGrant idle s
  | .toolReply frames => Sys2Proof.Machine.execToolReply frames s
  | .toolReplyTimeout => Sys2Proof.Machine.execToolReplyTimeout s
  | .tareComplete h => Sys2Proof.Machine.execTareComplete h s
  | .setupReadDone data => Sys2Proof.Machine.execSetupReadDone data s
  | .startHeaderWriteDone => Sys2Proof.Machine.execStartHeaderWriteDone s
  | .startingEntry => Sys2Proof.Machine.execStartingEntry s
  | .stopComplete => Sys2Proof.Machine.execStopComplete s
  | .faultExit => Sys2Proof.Machine.execFaultExit s
  | .busWriteError => Sys2Proof.Machine.execBusWriteError s
  | .takeOrder h => Sys2Proof.Machine.execTakeOrder h s
  | .activeWriteDone h => Sys2Proof.Machine.execActiveWriteDone h s
  | .withdrawReadDone h value => Sys2Proof.Machine.execWithdrawReadDone h value s
  | .startWithdrawReadDone h value => Sys2Proof.Machine.execStartWithdrawReadDone h value s
  | .planReadDone h data => Sys2Proof.Machine.execPlanReadDone h data s
  | .claimRequest h => Sys2Proof.Machine.execClaimRequest h s
  | .claimGrant h => Sys2Proof.Machine.execClaimGrant h s
  | .claimWithdraw h => Sys2Proof.Machine.execClaimWithdraw h s
  | .claimRelease h => Sys2Proof.Machine.execClaimRelease h s
  | .traceWriteDone h => Sys2Proof.Machine.execTraceWriteDone h s
  | .outcomeWriteDone h => Sys2Proof.Machine.execOutcomeWriteDone h s
  | .linkReadDone link => Sys2Proof.Machine.execLinkReadDone link s
  | .orderFetchDone data => Sys2Proof.Machine.execOrderFetchDone data s
  | .takeTableReadDone data => Sys2Proof.Machine.execTakeTableReadDone data s
  | .heldWithdrawReadDone value => Sys2Proof.Machine.execHeldWithdrawReadDone value s
  | .takenWriteDone => Sys2Proof.Machine.execTakenWriteDone s
  | .rejectWriteDone => Sys2Proof.Machine.execRejectWriteDone s
  | .stopWriteDone => Sys2Proof.Machine.execStopWriteDone s
  | .headerWriteDone part => Sys2Proof.Machine.execHeaderWriteDone part s
  | .pollTimerExpire => Sys2Proof.Machine.execPollTimerExpire s
  | .busReadTimeout => Sys2Proof.Machine.execBusReadTimeout s
  | .frameAfterFailedTransaction frame => Sys2Proof.Machine.execFrameAfterFailedTransaction frame s

end Sys2Proof.Machine
end

