-- ==== Sys2Proof/WellFormed.lean ====
section
/-! DEFINITION. What an operand may be: the sizes and ranges the spec fixes for what comes from outside. -/

namespace Sys2Proof

/-- A read that did not meet a bus error delivers exactly `n` bytes. -/
def readSize (n : Nat) : Option (List Byte) → Bool
  | none => true
  | some d => d.length = n

/-- The frames of a complete tool reply (R103): up to a frame with marker 1, two frames when ACK (bit 6
of the header) is 0, and two or eighteen when it is 1, by the command of the request. -/
def replyShape : List Frame → Bool
  | [] => false
  | hd :: rest =>
    (hd :: rest).any (·.marker) ||
      (if hd.data.getLsbD 6 then rest.length = 1 || rest.length = 17 else rest.length = 1)

/-- The operands are such as the spec allows. Plan and take-table reads have the size of what was asked
for, which State knows: a slot, a header, the entries or bands. -/
def Instr.wellFormed : Instr → Bool
  | .hardwareReset => true
  | .softReset rest => rest.getLsbD 2
  | .runWritten1 => true
  | .runWritten0 => true
  | .abort _ => true
  | .abaseLWrite _ => true
  | .abaseHWrite _ => true
  | .nudge _ => true
  | .evtWrite _ => true
  | .evtenWrite _ => true
  | .hcmdHalt _ => true
  | .hcmdRelease _ => true
  | .badCommand head command =>
    3 < head.toNat || (command.toNat ≠ 1 && command.toNat ≠ 2)
  | .registerWriteIgnored _ _ => true
  | .acceptedEdge _ _ _ => true
  | .strokeGuardExpire _ => true
  | .timedScanTick _ => true
  | .scanComplete _ own companion _ => own.length ≤ 32 && companion.length ≤ 32
  | .dwellExpire _ => true
  | .guardOpen => true
  | .guardClose => true
  | .estopAssert => true
  | .estopRelease => true
  | .startPress a b _ => a || b
  | .startRelease a b => !(a && b)
  | .pairWindowExpire => true
  | .posReadyRise _ => true
  | .posReadyFall _ => true
  | .ramTopRise _ => true
  | .ramTopFall _ => true
  | .toolAttach _ => true
  | .toolRemoval _ => true
  | .toolBusGrant _ => true
  | .toolReply frames => replyShape frames
  | .toolReplyTimeout => true
  | .tareComplete _ => true
  | .setupReadDone data => readSize 256 data
  | .startHeaderWriteDone => true
  | .startingEntry => true
  | .stopComplete => true
  | .faultExit => true
  | .busWriteError => true
  | .takeOrder _ => true
  | .activeWriteDone _ => true
  | .withdrawReadDone _ _ => true
  | .startWithdrawReadDone _ _ => true
  | .planReadDone _ data =>
    match data with
    | none => true
    | some d => d.length ≤ 8192 && d.length % 4 = 0
  | .claimRequest _ => true
  | .claimGrant _ => true
  | .claimWithdraw _ => true
  | .claimRelease _ => true
  | .traceWriteDone _ => true
  | .outcomeWriteDone _ => true
  | .linkReadDone _ => true
  | .orderFetchDone data => readSize 128 data
  | .takeTableReadDone data => readSize 4 data || readSize 32 data
  | .heldWithdrawReadDone _ => true
  | .takenWriteDone => true
  | .rejectWriteDone => true
  | .stopWriteDone => true
  | .headerWriteDone _ => true
  | .pollTimerExpire => true
  | .busReadTimeout => true
  | .frameAfterFailedTransaction _ => true

end Sys2Proof
end

