-- ==== Sys2Proof/Safety.lean ====
section
/-! DEFINITION. What the statements speak of: a command's answer, what stays unchanged, requests at the bus,
a unit brought to HALTED, an order's outcome being written, and the invariants of the machine. -/

namespace Sys2Proof.Machine

/-! ## Answers -/

/-- The command answers a next state, of which `P` holds. -/
def Answers (i : Instr) (s : State) (P : State → Prop) : Prop := ∃ t, exec i s = .next t ∧ P t

/-! ## What stays -/

/-- Sequencers, sense front-ends and pin plans of all heads unchanged. -/
def sameHeads (s t : State) : Prop := t.heads = s.heads ∧ t.senses = s.senses ∧ t.plans = s.plans

/-- Tool records and tool bus unchanged. -/
def sameTools (s t : State) : Prop := t.tools = s.tools ∧ t.toolBus = s.toolBus

/-- Claim table, messages to the arbiter and grants unchanged. -/
def sameBoard (s t : State) : Prop :=
  t.claims = s.claims ∧ t.claimMsgs = s.claimMsgs ∧ t.grants = s.grants

/-- Everything but run control and the bus is unchanged. -/
def sameBlocks (s t : State) : Prop :=
  sameHeads s t ∧ sameTools s t ∧ sameBoard s t ∧ t.reader = s.reader ∧ t.inputs = s.inputs ∧
    t.pending = s.pending

/-- What identifies a request at the bus. -/
def BusReq.key (r : BusReq) : Access × BitVec 64 × Fate := (r.access, r.addr, r.fate)

/-- The bus holds the same requests, one of which may have been granted, and the same rewrite marks. -/
def sameBus (s t : State) : Prop :=
  (t.bus.map BusReq.key).Perm (s.bus.map BusReq.key) ∧ t.rewrite = s.rewrite

/-- Run control once a flag has been set (R170): the flag, enabled or not, and with MSI one message more when no
flag was both set and enabled and one now is. -/
def flagSet (mask : BitVec 8) (c : Control) : Control :=
  { c with
    evt := c.evt ||| mask
    msiSent := c.msiSent + (if c.msiSelected = true ∧ c.evt &&& c.evten = 0 ∧
      (c.evt ||| mask) &&& c.evten ≠ 0 then 1 else 0) }

/-- Everything belonging to the heads outside a unit is unchanged. -/
def othersSame (us : List HeadId) (s t : State) : Prop :=
  ∀ k, k ∉ us → t.head k = s.head k ∧ t.sense k = s.sense k ∧ t.plan k = s.plan k ∧ t.tool k = s.tool k

/-! ## Flags and requests -/

/-- An event flag stands set. -/
def flagged (e : Event) (t : State) : Prop := t.control.evt &&& e.mask = e.mask

/-- A live read of `len` bytes at an offset of the exchange area is at the bus. -/
def reads (a : Access) (offset len : Nat) (t : State) : Prop :=
  ∃ r ∈ t.bus, r.access = a ∧ r.addr = t.busAddr offset ∧ r.len = len ∧ r.fate = .live

/-- A live write of these bytes at an offset of the exchange area is at the bus. -/
def writes (a : Access) (offset : Nat) (data : List Byte) (t : State) : Prop :=
  ∃ r ∈ t.bus, r.access = a ∧ r.addr = t.busAddr offset ∧ r.data = data ∧ r.fate = .live

/-- The access in flight is a live one for `a`, and the rest of the bus is `rest`. -/
def inFlightFor (a : Access) (s : State) : Prop :=
  ∃ r rest, s.bus = r :: rest ∧ r.granted = true ∧ r.fate = .live ∧ r.access = a

/-! ## Halts and outcomes -/

/-- Every head of a unit stands HALTED on its brake with its cause, guard and dwell timer stopped, step
trigger disarmed, and HALT is set (R49, R69). -/
def haltedBy (why : Reason) (us : List HeadId) (t : State) : Prop :=
  (∀ k ∈ us, (t.head k).state = .halted ∧ (t.head k).lastHalt = why ∧ (t.head k).setpoint = 0 ∧
    (t.head k).direction = .none ∧ (t.head k).brake = true ∧ (t.head k).guardArmed = false ∧
    (t.head k).dwell = none ∧ (t.sense k).triggerArmed = false) ∧ flagged .halt t

/-- The head has begun to write an outcome for an order, its device fields first (R57). -/
def closingBare (x : HeadId) (o : Order) (outcome : OrderOutcome) (reason : Reason) (t : State) : Prop :=
  (t.head x).outcomeFixed = true ∧
    (∃ c, (t.head x).closing = some c ∧ c.order = o ∧ c.stroke = false ∧ c.stage = .fields ∧
      c.result = HandOver.bare outcome reason) ∧
    writes (.outcomeWrite x) (fieldsOffset o.record) (DeviceFields.bare outcome reason).bytes t

/-- A unit's order before its stroke, run by `x`, for which no outcome has been fixed and no write has failed. -/
def openOrder (s : State) (x : HeadId) (o : Order) : Prop :=
  s.leads x = true ∧ (s.head x).state.beforeStroke = true ∧ (s.head x).current = some o ∧
    (s.head x).outcomeFixed = false ∧ (s.head x).writeFailed = false

/-- What an abort and ESTOP leave of the heads (R50, R58, R68 to R70, R174, R175): one in a motion state has
halted, one in HALTED stays as it was, every other is OFFLINE. -/
def headsStopped (why : Reason) (s t : State) : Prop :=
  ∀ h, ((s.head h).state.inMotion = true → haltedBy why [h] t) ∧
    ((s.head h).state = .halted → t.head h = s.head h) ∧
    ((s.head h).state.inMotion = false → (s.head h).state ≠ .halted → (t.head h).state = .offline)

/-! ## Invariants -/

/-- HELD claims of different heads are disjoint intervals (R116). -/
def ClaimsDisjoint (s : State) : Prop :=
  ∀ h k l1 u1 l2 u2, h ≠ k → s.claims.get h = .held l1 u1 → s.claims.get k = .held l2 u2 →
    overlap l1 u1 l2 u2 = false

/-- At most the first access of the bus is in flight. -/
def OneInFlight (s : State) : Prop := ∀ r ∈ s.bus.tail, r.granted = false

/-- The two heads of a gang both work as halves of it, in the same state, which is neither IDLE nor OFFLINE
(R74). -/
def GangsAligned (s : State) : Prop :=
  ∀ h, (s.head h).gang = true →
    (s.head h.primary).gang = true ∧ (s.head h.companion).gang = true ∧
      (s.head h.primary).state = (s.head h.companion).state ∧ (s.head h).state.atRest = false

/-- A head outside the motion states has setpoint 0 and its brake applied (R49). -/
def StillAtRest (s : State) : Prop :=
  ∀ h, (s.head h).state.inMotion = false →
    (s.head h).setpoint = 0 ∧ (s.head h).direction = .none ∧ (s.head h).brake = true

/-- While ESTOP is active the device is in ESTOP, or in STARTING on its way there (R175). -/
def EstopHolds (s : State) : Prop :=
  s.estopActive = true →
    s.control.device = .estop ∨ (s.control.device = .starting ∧ s.control.startEstop = true)

/-- No head is in a motion state while ESTOP is active or GUARD is open, and none is on its way to one while
ESTOP is active (R68). -/
def NoMotionWhenUnsafe (s : State) : Prop :=
  ∀ h, (s.guardOpen = true → (s.head h).state.inMotion = false) ∧
    (s.estopActive = true → (s.head h).state.inMotion = false ∧ (s.head h).state.beforeStroke = false)

/-- The rams are still where they must be. -/
def RamsStill (s : State) : Prop := GangsAligned s ∧ StillAtRest s

/-- The rams are safe from the operator's side. -/
def PressSafe (s : State) : Prop := GangsAligned s ∧ EstopHolds s ∧ NoMotionWhenUnsafe s

/-! ## What particular statements speak of -/

/-- A line whose debounced level is that of its only sample, with no change to hand on (R128). -/
def Line.fresh (l : Line) : Prop := l.level = l.raw ∧ l.count = 0

/-- What the operator input unit holds once its first samples after a reset are made, whatever they showed: each
level is that of its sample, with no change left to hand on; the pair is SPENT when a button was found pressed
(R128, R129, R132). -/
def Inputs.firstSampled (i : Inputs) : Prop :=
  i.startA.fresh ∧ i.startB.fresh ∧ i.guard.fresh ∧ i.estop.fresh ∧
  (∀ h, (i.masks.get h).fresh ∧ (i.posReady.get h).fresh ∧ (i.ramTop.get h).fresh ∧
    (i.toolPresent.get h).fresh) ∧
  i.pair = (if i.startA.raw || i.startB.raw then .spent else .ready)

/-- What every block holds after a reset (R178). -/
def blocksReset (s t : State) : Prop :=
  t.reader = Reader.reset ∧ t.heads = Four.all Head.reset ∧ t.plans = Four.all .empty ∧
  t.tools = Four.all Tool.reset ∧ t.toolBus = ToolBus.reset ∧ t.claims = Four.all .empty ∧
  t.claimMsgs = Four.all [] ∧ t.grants = Four.all none ∧
  (∀ h, t.sense h = Sense.reset (t.sense h).pinA (t.sense h).pinB) ∧
  t.inputs.firstSampled ∧ t.rewrite = RewriteMarks.reset ∧
  t.bus = orphanBus s.bus ∧ t.pending = s.pending

/-- Run control after a reset that leaves it as `c`: so with ESTOP found inactive; an ESTOP found active has been
handed on, with SAFE raised and the device in ESTOP (R129, R137, R178). -/
def controlReset (c : Control) (t : State) : Prop :=
  t.control = (if t.estopActive then
    { c with device := .estop, evt := Event.safe.mask ||| Event.runst.mask } else c)

/-- What the registers read after a reset (R168, R178): IDN its constant; STA the reset cause, with ESTOP as the
device state when it was found active; EVT then SAFE and RUNST; all else 0. -/
def registersReset (cause : Word) (t : State) : Prop :=
  ∀ offset, readRegister offset t =
    if offset = 0x00 then idnWord
    else if offset = 0x08 then (if t.estopActive then cause ||| 4 else cause)
    else if offset = 0x18 then (if t.estopActive then 0xC0 else 0)
    else 0

/-- What a device that has entered STARTING shows (R172): the setup block is being read at the base the
ABASE registers give. What a chain reader had still to write for a stop is given up (log 14). -/
def startBegun (s t : State) : Prop :=
  t.control.run = true ∧ t.control.device = .starting ∧ t.control.setupError = 0 ∧
  t.control.startBase = s.control.abaseH ++ s.control.abaseL ∧ flagged .runst t ∧
  (∃ r ∈ t.bus, r.access = .setupRead ∧ r.fate = .live ∧ r.len = 256 ∧
    r.addr = s.control.abaseH ++ s.control.abaseL + 256) ∧
  sameHeads s t ∧ sameTools s t ∧ sameBoard s t ∧ t.inputs = s.inputs ∧ t.pending = s.pending ∧
  t.reader = { s.reader with op := .none, stopping := none }

/-- What the end of a start given up leaves (R172, R175): ESTOP when ESTOP has met the start and holds, else
STOPPED; area, setup copy and setup error code as they were. A RUN that reads 1 makes no new start (R171). -/
def startAbandoned (s t : State) : Prop :=
  t.control.device = (if s.control.startEstop = true ∧ ¬(s.control.run = false ∧ s.estopActive = false)
    then .estop else .stopped) ∧
  flagged .runst t ∧ t.control.area = s.control.area ∧ t.control.setup = s.control.setup ∧
  t.control.setupError = s.control.setupError ∧ t.control.startEstop = false ∧
  t.control.startGivenUp = false ∧ t.control.run = s.control.run ∧
  t.control.staleRun = s.control.run ∧ sameBlocks s t

/-- The device state after RUN has been written 0 outside RUNNING (R171, R175 to R177). -/
def afterRunZero (s : State) : DeviceState :=
  match s.control.device with
  | .setupErr => .stopped
  | .estop => if s.estopActive then .estop else .stopped
  | .fault => if s.faultQuiet then .stopped else .fault
  | d => d

/-- The chain reader after a NUDGE (R151). -/
def nudgedReader (r : Reader) : Reader :=
  match r.state with
  | .waiting => { r with state := .reading, poll := none, op := .link }
  | .reading | .held => { r with pendingNudge := true }
  | .stopped | .faulted => r

/-- The depth after an edge at a head (R77, R78): 0 while RAM_TOP is asserted; one micrometre down or up with
the sequence of levels; nothing for a two-line jump; never past the limits of a signed 32-bit count. -/
def depthAfter (s : State) (h : HeadId) (edge : EncoderEdge) : Int :=
  let a := (s.sense h).levelA
  let b := (s.sense h).levelB
  let d := (s.sense h).depth
  if s.ramTop h then 0
  else
    match edge with
    | .lineA => clampDepth (if a = b then d + 1 else d - 1)
    | .lineB => clampDepth (if a = b then d - 1 else d + 1)
    | .both => clampDepth d

/-- An edge that moves the depth downward to or past the next depth of an armed step trigger (R80). -/
def triggerReached (s : State) (h : HeadId) (edge : EncoderEdge) : Bool :=
  (s.sense h).triggerArmed && decide ((s.sense h).depth < depthAfter s h edge) &&
    decide ((s.sense h).nextTrigger ≤ depthAfter s h edge)

/-- A firing of one head's own converter. -/
def plainFiring (kind : ScanKind) (depth : Int) : Firing :=
  { kind := kind, depth := depth, own := true, companion := false, discard := false }

/-- The depth of one head of a gang after an edge at `h`. -/
def gangDepth (s : State) (h : HeadId) (edge : EncoderEdge) (k : HeadId) : Int :=
  if k = h then depthAfter s h edge else (s.sense k).depth

/-- A firing of a gang's primary, or a tick of its dwell (R82, R83): a scan on each converter that is not busy, one
overrun when either is, no sample when both are. -/
def firedBoth (kind : ScanKind) (depth : Int) (h : HeadId) (ownBusy companionBusy : Bool)
    (s t : State) : Prop :=
  (t.sense h).scanning = true ∧ (t.sense h.companion).scanning = true ∧
  (t.sense h).overruns = (if ownBusy || companionBusy then min 65535 ((s.sense h).overruns + 1)
    else (s.sense h).overruns) ∧
  (t.sense h).firings = (s.sense h).firings ++
    (if ownBusy && companionBusy then []
     else [{ kind := kind, depth := depth, own := !ownBusy, companion := !companionBusy,
             discard := false }])

/-- The sample that a firing of a head comes to. -/
def sampleOf (s : State) (h : HeadId) (f : Firing) (rest : List Firing)
    (own companion : List Raw) : Sample :=
  (makeSample h f own companion (s.head h).contactReached (endFiring h f rest s)).1

/-- The sum force of a sample reaches the order's maximum, or some channel exceeds ten times its limit
(R63). -/
def tooStrong (s : State) (h : HeadId) (o : Order) (smp : Sample) : Prop :=
  o.maxSumForce ≤ smp.sum ∨ overLimit (s.tool h).limits smp.own = true ∨
    overLimit (s.tool h.companion).limits smp.companion = true

/-- What a converter's readings make of one tool's channels, or, where the firing started no scan on it, the same
channels and every tine missing (R36, R82, R126). -/
def scannedOr (started reverse : Bool) (s : State) (k : HeadId) (raws : List Raw) : Scanned :=
  if started then scanTines s.setup reverse (s.tool k).tines (s.tool k).gains raws (s.sense k).channels
  else
    { channels := (s.sense k).channels, values := List.replicate (s.tool k).tines none, warn := false }

/-- A group as a halt of an ARMED or LIVE plan leaves it (R38, R42): one whose window had closed as it was;
every other closed with its shares and what its members had recorded, HALTED_OPEN where its window was open and
it bears no fault mark, its judged members NOT_CHECKED and the others UNJUDGED. -/
def Group.halted (envs : List Envelope) (g : Group) : Group :=
  if g.window = .closed then g
  else
    { g with
      window := .closed
      haltedOpen := g.window = .opened && !g.channelFault
      members := g.members.map (fun m =>
        { m with verdict := some (if (m.judgedOn envs).isSome then .notChecked else .unjudged) }) }

/-- An ARMED or LIVE plan as a halt leaves it (R42). -/
def Plan.halted (p : Plan) : Plan :=
  { p with
    phase := .closed
    channels := p.channels.map (fun c => { c with groups := c.groups.map (Group.halted p.envelopes) }) }

/-- A reply that meets none of R103's failures, bit by bit of its header frame (section 11.7): no marker, two
frames for a WRITE and eighteen for a READ, their data bits summing to 0 modulo 256, page, half and toggle as sent,
ACK 1, and for a WRITE COMPLY 1. -/
def goodReply (w : Transaction) : List Frame → Prop
  | [] => False
  | hd :: rest =>
    (∀ f ∈ hd :: rest, f.marker = false) ∧ (hd :: rest).length = (if w.write then 2 else 18) ∧
    ((hd :: rest).map (fun f => f.data.toNat)).sum % 256 = 0 ∧
    (hd.data.extractLsb' 0 3).toNat = w.page ∧ hd.data.getLsbD 3 = w.half ∧
    hd.data.getLsbD 7 = w.toggle ∧ hd.data.getLsbD 6 = true ∧
    (w.write = true → hd.data.getLsbD 5 = true)

/-- A head's AUTO start condition: it leads its unit, waits in START_WAIT with an order of the mode, reads no
withdraw field for a start, and has POS_READY on every head of its unit (R60, R134). -/
def readyToStart (mode : StartMode) (s : State) (x : HeadId) (o : Order) : Prop :=
  s.leads x = true ∧ (s.head x).state = .startWait ∧ (s.head x).outcomeFixed = false ∧
    (s.head x).startRead = none ∧ (s.head x).current = some o ∧ o.startMode = mode ∧
    (s.unit x).all s.posReady = true

/-- The first tool check of step 3 that fails, in the order of R54's table, on tools none of which is in
IDENTIFY. -/
def toolRefusal (o : Order) (tools : List Tool) : Option Reason :=
  if tools.any (fun t => t.state = .absent) then some .toolAbsent
  else if tools.any (fun t => t.state = .fault) then some .toolFault
  else if o.toolType ≠ 0 ∧ tools.any (fun t => t.toolType ≠ o.toolType) then some .toolType
  else if tools.any (fun t => t.state = .ready && t.worn) then some .toolWorn
  else if tools.any (fun t => tools.any (fun u => t.toolType ≠ u.toolType)) then some .gangMismatch
  else none

/-- A tare of a head is due (R111): its tare is invalid, or the tare period, when not 8, has run out. -/
def dueForTare (s : State) (k : HeadId) : Prop :=
  (s.sense k).tareValid = false ∨
    s.setup.tarePeriod ≤ 7 ∧ 2 ^ s.setup.tarePeriod ≤ (s.sense k).strokesSinceTare

/-- The arbiter has made a pass after a release of `h` (R120): each entry still WAITING overlaps an entry of
another head that was HELD before, or that the pass has granted to an order not younger. -/
def passMade (h : HeadId) (s t : State) : Prop :=
  ∀ k l u a, t.claims.get k = .waiting l u a →
    ∃ j l' u', t.claims.get j = .held l' u' ∧ overlap l u l' u' = true ∧
      (j ≠ h ∧ s.claims.get j = .held l' u' ∨ ∃ b, s.claims.get j = .waiting l' u' b ∧ b ≤ a)

/-- The pair after a press (R131). -/
def pairPressed (bPressed both : Bool) : Pair → Pair
  | .ready => if both then .spent else .oneDown bPressed 0
  | .oneDown _ _ => .spent
  | .spent => .spent

/-- A completing pair at a press (R131, R132). -/
def pairCompleted (both : Bool) : Pair → Bool
  | .ready => both
  | .oneDown _ window => window ≤ 500
  | .spent => false

/-- The pair after a release, `a` and `b` the levels after the sample (R131, R132). -/
def pairReleased (a b : Bool) : Pair → Pair
  | .ready => .ready
  | .oneDown _ _ => if a then .oneDown false 0 else if b then .oneDown true 0 else .ready
  | .spent => if a || b then .spent else .ready

/-- What a read of the chain that ends in FAULTED leaves (R157): CHERR, the reason, the held slot empty, the
timer stopped; anchor, turn, lists and counts as they were. -/
def chainFaulted (why : ChainFault) (s t : State) : Prop :=
  t.reader = { s.reader with
    state := .faulted, heldSlot := none, poll := none, chainFault := why, op := .none } ∧
  flagged .cherr t ∧ t.control.device = s.control.device ∧ sameHeads s t ∧ sameTools s t

/-- The order at a record has been disposed of (R149): it is the anchor, the turn has flipped, the taken count
has risen by one. -/
def disposed (record : Nat) (s t : State) : Prop :=
  t.reader.anchor = record ∧ t.reader.expectedTurn = !s.reader.expectedTurn ∧
    t.reader.takenCount = s.reader.takenCount + 1

/-! ## Records, spelled from their layouts -/

/-- The code of the first field of a setup block that is out of range, in the order of R141's table, the fields
at the offsets and with the codes of section 11.2. -/
def setupRefusal (d : List Byte) : Option Byte :=
  let area := u32At d 4
  let out := fun (lo n hi : Nat) => n < lo ∨ hi < n
  if u16At d 0 ≠ 1 then some 0x02#8
  else if out 65536 area 16777216 ∨ area % 65536 ≠ 0 then some 0x03#8
  else if u32At d 8 % 64 ≠ 0 ∨ u32At d 8 < 512 ∨ area < u32At d 8 + 512 then some 0x04#8
  else if u32At d 12 % 64 ≠ 0 ∨ u32At d 12 < 512 ∨ area < u32At d 12 + 128 then some 0x05#8
  else if 1 < byteAt d 2 then some 0x06#8
  else if out 1000 (u32At d 64) 50000 then some 0x10#8
  else if out 1000 (u32At d 72) 50000 then some 0x11#8
  else if out 1000 (u32At d 80) 50000 then some 0x12#8
  else if out 1000 (u32At d 88) 50000 then some 0x13#8
  else if out 1 (u16At d 68) 1000 then some 0x14#8
  else if out 1 (u16At d 76) 1000 then some 0x15#8
  else if out 1 (u16At d 84) 1000 then some 0x16#8
  else if out 1 (u16At d 92) 1000 then some 0x17#8
  else if 8 < byteAt d 19 then some 0x20#8
  else if out 3 (byteAt d 20) 10 then some 0x21#8
  else if out 1 (u16At d 24) 32767 then some 0x22#8
  else if out 1 (u32At d 28) 100000 then some 0x23#8
  else if byteAt d 21 = 0 then some 0x24#8
  else if out 1 (u32At d 32) 1000000 then some 0x25#8
  else if out 20 (u16At d 36) 2000 then some 0x26#8
  else if 100000 < u32At d 40 then some 0x27#8
  else if s32At d 44 < 1 ∨ 2000000 < s32At d 44 then some 0x28#8
  else if out 1 (byteAt d 22) 15 then some 0x29#8
  else if out 1 (u16At d 38) 5000 then some 0x2A#8
  else if out 10 (u16At d 48) 2000 then some 0x2B#8
  else if 2000 < u16At d 50 then some 0x2C#8
  else none

/-- The setup copy holds the fields of a setup block (R141, section 11.2). -/
def copiesSetup (d : List Byte) (c : Setup) : Prop :=
  (c.initialTurn = true ↔ byteAt d 2 = 1) ∧
  (∀ h : HeadId, c.headMask.getLsbD h.toNat = (d.getD 3 0).getLsbD h.toNat) ∧
  c.areaSize = u32At d 4 ∧ c.directory = u32At d 8 ∧ c.lead = u32At d 12 ∧
  (∀ i : Fin 2, c.gangEnable.getLsbD i = (d.getD 16 0).getLsbD i) ∧
  (∀ i : Fin 4, c.startMask.getLsbD i = (d.getD 17 0).getLsbD i) ∧
  c.pollInterval = byteAt d 18 ∧ c.tarePeriod = byteAt d 19 ∧ c.tareAverage = byteAt d 20 ∧
  c.glitchLimit = byteAt d 21 ∧ c.contactCount = byteAt d 22 ∧ c.tareOffsetLimit = u16At d 24 ∧
  c.reverseThreshold = u32At d 28 ∧ c.slewLimit = u32At d 32 ∧ c.groupSpacing = u16At d 36 ∧
  c.contactReset = u16At d 38 ∧ c.settleLimit = u32At d 40 ∧ c.contactThreshold = s32At d 44 ∧
  c.gangSkew = u16At d 48 ∧ c.zoneMargin = u16At d 50 ∧
  ∀ h : HeadId, c.fullScale.get h = u32At d (64 + 8 * h.toNat) ∧
    c.guardInterval.get h = u16At d (68 + 8 * h.toNat)

/-- The reason of the first of checks 1 to 12 that a fetched record fails, in the order of R145's table, the fields
at the offsets of section 11.4. -/
def recordRefusal (c : Setup) (d : List Byte) : Option Reason :=
  let head := byteAt d 10
  let ganged := byteAt d 11 = 1
  let mode := byteAt d 14
  let out := fun (lo n hi : Nat) => n < lo ∨ hi < n
  if 3 < head ∨ c.headMask.getLsbD head = false then some .badHead
  else if 1 < byteAt d 11 then some .badField
  else if ganged ∧ head % 2 = 1 then some .badHead
  else if ganged ∧ (c.gangEnable.getLsbD (head / 2) = false ∨ c.headMask.getLsbD (head + 1) = false) then
    some .gangOff
  else if 1 < byteAt d 12 ∨ 1 < byteAt d 13 ∨ 2 < mode ∨ 1 < byteAt d 6 then some .badField
  else if 8 < byteAt d 18 ∨
      ∃ j ∈ List.range (byteAt d 18), 16 < byteAt d (20 + 2 * j) ∨ 63 < byteAt d (21 + 2 * j) then some .badField
  else if u16At d 38 < u16At d 36 then some .badField
  else if s32At d 40 < 0 ∨ s32At d 44 < s32At d 40 ∨ s32At d 48 < s32At d 44 ∨
      mode = 0 ∧ s32At d 48 < s32At d 52 then some .badField
  else if out 100 (u16At d 68) 50000 ∨ out 100 (u16At d 70) 50000 ∨ out 100 (u16At d 72) 50000 ∨
      out 100 (u16At d 74) 50000 ∨ out 1 (byteAt d 76) 64 ∨ 2000 < u16At d 78 ∨ s32At d 64 < 1 ∨
      mode = 1 ∧ s32At d 56 < 1 ∨ mode = 2 ∧ s32At d 60 < 1 then some .badField
  else if u32At d 80 % 16 ≠ 0 ∨ u32At d 80 < 512 ∨ u16At d 84 = 0 ∨
      c.areaSize < u32At d 80 + 16 * u16At d 84 then some .badField
  else if u32At d 88 ≠ 0 ∧ (u32At d 88 % 16 ≠ 0 ∨ u32At d 88 < 512 ∨ c.areaSize < u32At d 88 + u32At d 92) then
    some .badField
  else if 63 < byteAt d 15 then some .badField
  else none

/-- An order holds the fields of a record that the host program wrote, but for link, status and withdraw (R147,
section 11.4). -/
def copiesRecord (d : List Byte) (o : Order) : Prop :=
  o.turn = byteAt d 4 ∧ o.tag.toNat = u16At d 8 ∧ o.head.toNat = byteAt d 10 ∧
  (o.ganged = true ↔ byteAt d 11 = 1) ∧
  o.startMode = (if byteAt d 12 = 1 then .operator else .auto) ∧
  o.orientation = (if byteAt d 13 = 1 then .turned else .normal) ∧
  o.seatMode = (if byteAt d 14 = 1 then .force else if byteAt d 14 = 2 then .shoulder else .depth) ∧
  o.mapId = byteAt d 15 ∧ o.toolType.toNat = u16At d 16 ∧ o.remapCount = byteAt d 18 ∧
  o.remap = (List.range 8).map (fun j => (byteAt d (20 + 2 * j), byteAt d (21 + 2 * j))) ∧
  o.zoneFrom = u16At d 36 ∧ o.zoneTo = u16At d 38 ∧ o.approachEnd = s32At d 40 ∧
  o.seekLimit = s32At d 44 ∧ o.pressLimit = s32At d 48 ∧ o.seatTarget = s32At d 52 ∧
  o.seatForce = s32At d 56 ∧ o.shoulderRise = s32At d 60 ∧ o.maxSumForce = s32At d 64 ∧
  o.approachSpeed = u16At d 68 ∧ o.seekSpeed = u16At d 70 ∧ o.pressSpeed = u16At d 72 ∧
  o.retractSpeed = u16At d 74 ∧ o.samplePitch = byteAt d 76 ∧ o.dwellTime = u16At d 78 ∧
  o.resultArea = u32At d 80 ∧ o.resultCapacity = u16At d 84 ∧ o.traceArea = u32At d 88 ∧
  o.traceCapacity = u32At d 92

/-- A link other than 0 that fails a check of R143. -/
def badLink (s : State) (link : Nat) : Prop :=
  link % 64 ≠ 0 ∨ link < 512 ∨ s.setup.areaSize < link + 128 ∨ link = s.reader.anchor ∨
    (∃ o ∈ s.reader.taken, o.record = link) ∨ ∃ o, s.reader.heldSlot = some o ∧ o.record = link

/-! ## The plan build, spelled (chapter 1) -/

/-- A directory slot that names no table with room for its header (R1). -/
def badSlot (area header value : Nat) : Prop := value = 0 ∨ value % 64 ≠ 0 ∨ area < value + header

/-- A pin map header found at `off` for an order passes R1 and R2 (section 11.3). -/
def goodMapHeader (area : Nat) (o : Order) (off : Nat) (d : List Byte) : Prop :=
  byteAt d 0 = o.mapId ∧ 1 ≤ u16At d 2 ∧ u16At d 2 ≤ 1024 ∧ 1 ≤ byteAt d 4 ∧ byteAt d 4 ≤ 64 ∧
  1 ≤ byteAt d 5 ∧ byteAt d 5 ≤ 64 ∧ s32At d 8 ≤ s32At d 12 ∧
  (∀ k : Fin 16, byteAt d (16 + k) ≤ 63 ∨ byteAt d (16 + k) = 255) ∧
  off + 32 + 8 * u16At d 2 ≤ area ∧ u16At d 2 ≤ o.resultCapacity

/-- Pin entry `i` of those read, at the offsets of section 11.3. -/
def entryAt (d : List Byte) (i : Nat) : PinEntry :=
  { row := byteAt d (8 * i), column := byteAt d (8 * i + 1), cls := byteAt d (8 * i + 2),
    engage := u32At d (8 * i + 4) }

/-- The pin entries read for a map pass R3. -/
def goodEntries (m : MapHeader) (d : List Byte) : Prop :=
  (∀ i, i < m.pinCount →
    let e := entryAt d i
    e.row ≤ 63 ∧ e.row < m.rows ∧ e.column ≤ 63 ∧ e.column < m.columns ∧ e.cls ≤ 15 ∧ e.engage ≤ 20000) ∧
  ∀ i, i < m.pinCount → ∀ j, j < i →
    ¬((entryAt d i).row = (entryAt d j).row ∧ (entryAt d i).column = (entryAt d j).column)

/-- An envelope header found at `off` through slot 64 + `id` passes R1 and R4 (section 11.3). -/
def goodEnvelopeHeader (area id off : Nat) (d : List Byte) : Prop :=
  byteAt d 0 = id ∧ 1 ≤ byteAt d 1 ∧ byteAt d 1 ≤ 8 ∧ 0 ≤ s32At d 4 ∧ 0 ≤ s32At d 8 ∧
  off + 16 + 16 * byteAt d 1 ≤ area

/-- Band `b` of those read, at the offsets of section 11.3. -/
def bandAt (d : List Byte) (b : Nat) : Band :=
  { bandFrom := u16At d (16 * b), bandTo := u16At d (16 * b + 2), minShare := s32At d (16 * b + 4),
    maxShare := s32At d (16 * b + 8), haltAction := byteAt d (16 * b + 12) = 1 }

/-- The bands read for an envelope header pass R4. -/
def goodBands (header d : List Byte) : Prop :=
  ∀ b, b < byteAt header 1 →
    (bandAt d b).bandFrom < (bandAt d b).bandTo ∧ (bandAt d b).minShare ≤ (bandAt d b).maxShare ∧
    byteAt d (16 * b + 12) ≤ 1

/-- The earliest remap entry within the count that names a class gives it an envelope id (R7). -/
def remapsTo (o : Order) (cls id : Nat) : Prop :=
  ∃ j, j < o.remapCount ∧ o.remap[j]? = some (cls, id) ∧
    ∀ k, k < j → ∀ e, o.remap[k]? = some e → e.1 ≠ cls

/-- What R5 chooses for a class: its own remap entry, else that of class 16, else the class default table's, where
255 is none. -/
def chooses (o : Order) (m : MapHeader) (cls : Nat) (chosen : Option Nat) : Prop :=
  (∃ id, remapsTo o cls id ∧ chosen = some id) ∨
  (∀ id, ¬remapsTo o cls id) ∧
    ((∃ id, remapsTo o 16 id ∧ chosen = some id) ∨
     (∀ id, ¬remapsTo o 16 id) ∧
       chosen = if m.classDefault.getD cls 255 = 255 then none else some (m.classDefault.getD cls 255))

/-- What R5 chooses for a class needs no read: no envelope, or one the plan holds a copy of (R8). -/
def copied (o : Order) (m : MapHeader) (envs : List Envelope) (cls : Nat) : Prop :=
  ∀ id, chooses o m cls (some id) → ∃ e ∈ envs, e.id = id

/-- A class with the number of the envelope copy noted for it, or none. -/
def noted (o : Order) (m : MapHeader) (envs : List Envelope) (x : Nat × Option Nat) : Prop :=
  chooses o m x.1 none ∧ x.2 = none ∨
    ∃ id i e, chooses o m x.1 (some id) ∧ x.2 = some i ∧ envs[i]? = some e ∧ e.id = id

/-- The choosing of step 4 goes on from `b` through the classes left (R5, R8, R15): the first whose envelope is
not in the plan has its directory slot, 64 + id, read, unless 16 copies are held; with none left the plan is
made. -/
def goesOnChoosing (c : Setup) (o : Order) (t0 t1 : Nat) (m : MapHeader) (b : Build) (r : BuildResult) : Prop :=
  (∀ before cls after id, b.classes = before ++ cls :: after → (∀ k ∈ before, copied o m b.envelopes k) →
    chooses o m cls (some id) → (∀ e ∈ b.envelopes, e.id ≠ id) →
    if 16 ≤ b.envelopes.length then r = .fail .plan
    else ∃ b', r = .read b' (c.directory + 4 * (64 + id)) 4 ∧ b'.stage = .envSlot id ∧
      b'.classes = cls :: after ∧ b'.header = b.header ∧ b'.entries = b.entries ∧
      b'.envelopes = b.envelopes ∧
      ∃ added, b'.chosen = b.chosen ++ added ∧ added.map (·.1) = before ∧
        ∀ x ∈ added, noted o m b.envelopes x) ∧
  ((∀ k ∈ b.classes, copied o m b.envelopes k) →
    ∃ added, added.map (·.1) = b.classes ∧ (∀ x ∈ added, noted o m b.envelopes x) ∧
      r = match makePlan c o t0 t1 m b.entries (b.chosen ++ added) b.envelopes with
        | none => .fail .plan
        | some p => .complete p)

/-- The channel a pin is placed on, or none beyond the tools (R9 to R12). -/
def placedOn (o : Order) (m : MapHeader) (t0 t1 : Nat) (e : PinEntry) : Option (HeadId × Nat) :=
  let l := if o.orientation = .turned then m.columns - 1 - e.column else e.column
  if l < t0 then some (o.head, l)
  else if o.ganged = true ∧ l < t0 + t1 then some (o.head.companion, l - t0)
  else none

/-- The entry indexes of a group's members, in their order. -/
def Group.pins (g : Group) : List Nat := g.members.map (·.entry)

/-- A channel of a plan holds the pins placed on it, sorted by engage depth and then by entry index, and cut into
groups (R13): each takes, from its first pin on, the pins less than the group spacing past that pin's engage depth,
and the next begins with the first that is not. Every window is as R16 has it at the start. -/
def cutAsR13 (c : Setup) (o : Order) (m : MapHeader) (t0 t1 : Nat) (es : List PinEntry) (ch : PlanChannel) :
    Prop :=
  let depth := fun i => (es[i]?.map (·.engage)).getD 0
  (∀ i, i ∈ (ch.groups.map Group.pins).flatten ↔
    ∃ e, es[i]? = some e ∧ placedOn o m t0 t1 e = some (ch.head, ch.tine)) ∧
  ((ch.groups.map Group.pins).flatten.Pairwise
    (fun i j => depth i < depth j ∨ depth i = depth j ∧ i < j)) ∧
  (∀ g ∈ ch.groups, ∃ first rest, g.pins = first :: rest ∧ g.engage = depth first ∧
    (∀ i ∈ rest, depth i < g.engage + c.groupSpacing) ∧
    g.window = .unopened ∧ g.baseline = 0 ∧ g.maxShare = none ∧ g.finalShare = none ∧ g.present = 0 ∧
    g.lastDepth = none ∧ g.carryUnsettled = false ∧ g.channelFault = false ∧ g.haltedOpen = false) ∧
  (∀ i g next, ch.groups[i]? = some g → ch.groups[i + 1]? = some next →
    g.engage + c.groupSpacing ≤ next.engage) ∧
  ch.lastTwo = []

/-- The plan made once every class has its envelope (R12, R13, R16): none when a pin is placed on no channel;
else ARMED, with the envelopes, the seat window and the totals, a channel for every tine that has a pin, and
every pin with nothing recorded, judged on the copy noted for its class. -/
def planMade (c : Setup) (o : Order) (t0 t1 : Nat) (m : MapHeader) (es : List PinEntry)
    (chosen : List (Nat × Option Nat)) (envs : List Envelope) (r : Option Plan) : Prop :=
  (r = none ↔ ∃ e ∈ es, placedOn o m t0 t1 e = none) ∧
  ∀ p, r = some p →
    p.phase = .armed ∧ p.envelopes = envs ∧ p.seatMin = m.seatMin ∧ p.seatMax = m.seatMax ∧
    p.pinCount = m.pinCount ∧ p.asked = false ∧
    ((chosen.map (·.1)).Nodup → (∀ e ∈ es, ∃ k, (e.cls, k) ∈ chosen) →
      p.unjudged = es.countP (fun e => decide ((e.cls, none) ∈ chosen))) ∧
    (∀ ch ∈ p.channels, cutAsR13 c o m t0 t1 es ch) ∧
    (∀ e ∈ es, ∀ h tine, placedOn o m t0 t1 e = some (h, tine) → tine < 32 →
      ∃ ch ∈ p.channels, ch.head = h ∧ ch.tine = tine) ∧
    (∀ ch ∈ p.channels, ∀ g ∈ ch.groups, ∀ mb ∈ g.members, ∀ e, es[mb.entry]? = some e →
      (∀ k, (chosen.map (·.1)).Nodup → (e.cls, k) ∈ chosen → mb.envelope = k) ∧
      mb.counts = (match mb.judgedOn envs with
        | none => []
        | some env => env.bands.map (fun _ => 0)) ∧
      mb.low = false ∧ mb.high = false ∧ mb.buckle = false ∧ mb.firstBand = none ∧ mb.verdict = none)

/-! ## Samples, spelled (chapters 2 and 3) -/

/-- The seat condition at a sample (R64), `before` the history it is added to: in SHOULDER the sum force of the
sample four before it is needed. -/
def seatReached (o : Order) (before : List Sample) (smp : Sample) : Prop :=
  match o.seatMode with
  | .depth => o.seatTarget ≤ smp.depth
  | .force => o.seatForce ≤ smp.sum
  | .shoulder => ∃ older f a b c, before = older ++ [f, a, b, c] ∧ o.shoulderRise ≤ smp.sum - f.sum

/-- The press has ended at a sample (R64): setpoint 0, brake released, guard and trigger disarmed, its depth
recorded; DWELL with the order's dwell time, or the results writing at once with every head of the unit in the
state `st`. -/
def pressEndedAt (smp : Sample) (st : HeadId → HeadState) (s : State) (h : HeadId) (o : Order) (t : State) : Prop :=
  (∀ k ∈ s.unit h, (t.head k).setpoint = 0 ∧ (t.head k).direction = .none ∧
    (t.head k).brake = false ∧ (t.head k).guardArmed = false) ∧
  (t.sense h).triggerArmed = false ∧ (t.head h).pressEnd = some smp.depth ∧
  (if o.dwellTime = 0 then
    (∀ k ∈ s.unit h, (t.head k).state = st k) ∧ (t.head h).outcomeFixed = true ∧
    ∃ c, (t.head h).closing = some c ∧ c.order = o ∧ c.seatDepth = smp.depth ∧ c.stroke = true ∧
      c.contactDepth = (t.head h).contactDepth.getD 0
  else (∀ k ∈ s.unit h, (t.head k).state = .dwell) ∧ (t.head h).dwell = some o.dwellTime)

/-- A sample makes some judged member of an open group ask for a halt (R31): its share lies outside a HALT band that
counts it. -/
def violatesHaltBand (envs : List Envelope) (dc depth force : Int) (g : Group) : Prop :=
  g.window = .opened ∧ ∃ mb ∈ g.members, ∃ e, mb.judgedOn envs = some e ∧ ∃ b ∈ e.bands,
    b.haltAction = true ∧ (b.bandFrom : Int) ≤ depth - (dc + g.engage) ∧ depth - (dc + g.engage) < b.bandTo ∧
    ((force - g.baseline).tdiv g.members.length < b.minShare ∨
      b.maxShare < (force - g.baseline).tdiv g.members.length)

/-- A channel's value in a sample of head `x`'s stroke (R11, R21). -/
def valueIn (smp : Sample) (x : HeadId) (c : PlanChannel) : Option Int :=
  if c.head = x then smp.own.getD c.tine none else smp.companion.getD c.tine none

/-- The plan made LIVE at contact, the replay taken (R22 to R24): the samples of the history from the one at Dc on,
oldest first. -/
def replayed (settle : Nat) (x : HeadId) (dc : Int) (samples : List Sample) (p : Plan) : Plan :=
  samples.foldl (fun q smp => q.take settle x smp) { p with phase := .live, contactDepth := dc }

/-! ## Tools, traces and the header, spelled (chapters 5 and 9) -/

/-- A tool after a counted stroke (R109): on a READY tool the count raised, up to 4 294 967 295, WORN by the new
count, and the wear page to be written: a write not yet granted serves, one granted is followed by another. -/
def strokeCounted (t : Tool) : Tool :=
  let n := min 4294967295 (t.strokes + 1)
  let u := { t with strokes := n, worn := t.worn || decide (t.wearLimit ≠ 0 ∧ t.wearLimit ≤ n) }
  if t.state ≠ .ready then t
  else if t.request = .wearWrite then { u with wearAgain := t.wearAgain || t.wearGranted }
  else
    { u with request := .wearWrite, retries := 0, wearData := none, wearGranted := false, wearAgain := false,
             identifyAfter := false }

/-- The pattern of a signed field of four bytes. -/
def pattern32 (i : Int) : Nat := (BitVec.ofInt 32 i).toNat

/-- A write of a header part has been asked for (R164, R165): none without a taken area; one request when none is
outstanding; nothing where one waits; the rewrite mark alone where one is in flight. -/
def partAsked (p : HeaderPart) (offset : Nat) (s t : State) : Prop :=
  let mine := fun r : BusReq => r.access = .header p ∧ r.fate = .live
  (s.control.area = none → t.bus = s.bus ∧ t.rewrite = s.rewrite) ∧
  ∀ a, s.control.area = some a →
    ((∀ r ∈ s.bus, ¬mine r) → t.rewrite = s.rewrite ∧ ∃ r, t.bus = s.bus ++ [r] ∧ mine r ∧
      r.granted = false ∧ r.addr = a.base + BitVec.ofNat 64 offset) ∧
    ((∃ r ∈ s.bus, mine r) → (∀ r ∈ s.bus, mine r → r.granted = false) →
      t.bus = s.bus ∧ t.rewrite = s.rewrite) ∧
    ((∃ r ∈ s.bus, mine r) → (∀ r ∈ s.bus, mine r → r.granted = true) →
      t.bus = s.bus ∧ ∀ q, t.rewrite.marked q = (decide (q = p) || s.rewrite.marked q))

/-- The bytes of the chain part as a grant takes them (R152, section 11.1). -/
def chainBytes (r : Reader) (d : List Byte) : Prop :=
  d.length = 32 ∧ byteAt d 0 = r.state.code ∧ byteAt d 1 = r.chainFault.code ∧ u16At d 2 = 0 ∧
  u32At d 4 = r.anchor % 2 ^ 32 ∧
  u32At d 8 = (match r.taken with
    | [] => r.anchor
    | o :: _ => o.record) % 2 ^ 32 ∧
  u32At d 12 = r.completed.toNat ∧ u32At d 16 = r.takenCount.toNat ∧ ∀ i, 20 ≤ i → i < 32 → byteAt d i = 0

/-- The bytes of a head's live block as a grant takes them (R166, section 11.1): half of a gang shows the primary's
last halt reason, and the companion a sum force of 0. -/
def liveBytes (s : State) (h : HeadId) (d : List Byte) : Prop :=
  let x := s.head h
  let gang := x.gang
  let w := s.tool h
  d.length = 32 ∧ byteAt d 0 = x.state.code ∧
  byteAt d 1 = (s.head (if gang then h.primary else h)).lastHalt.code ∧
  byteAt d 2 = (match w.state with
    | .absent => 0
    | .identify => 1
    | .ready => if w.worn then 3 else 2
    | .fault => 4) ∧
  byteAt d 3 = 0 ∧ u16At d 4 = (match x.current with
    | none => 0
    | some o => o.tag.toNat) ∧
   u16At d 6 = w.toolType.toNat ∧
  u32At d 8 = pattern32 (s.sense h).depth ∧
  u32At d 12 = (if gang = true ∧ h ≠ h.primary then 0 else pattern32 (s.sense h).latest) ∧
  u32At d 16 = w.strokes % 2 ^ 32 ∧ ∀ i, 20 ≤ i → i < 32 → byteAt d i = 0

/-! ## The block with no command waiting, spelled -/

/-- Three successive samples of a line have shown the level `other`, which is not its debounced one (R128). -/
def Line.shows (l : Line) (other : Bool) : Prop := l.level = !other ∧ l.raw = other ∧ 3 ≤ l.count

/-- A line after one sample more (R128, R129): its debounced level stands; a sample that shows that level sets
the count back, any other raises it. -/
def Line.sampledOnce (l m : Line) : Prop :=
  m.level = l.level ∧ m.count = if m.raw = l.level then 0 else min 3 (l.count + 1)

/-- A MASK line after one sample more: its change goes to no block and takes effect by itself (R128, R130). -/
def Line.maskSampled (l m : Line) : Prop :=
  if m.raw ≠ l.level ∧ 2 ≤ l.count then m.level = m.raw ∧ m.count = 0 else l.sampledOnce m

/-- One tick of the 1 ms timebase at the operator input unit (R128, R131). -/
def Inputs.ticked (i j : Inputs) : Prop :=
  i.startA.sampledOnce j.startA ∧ i.startB.sampledOnce j.startB ∧ i.guard.sampledOnce j.guard ∧
  i.estop.sampledOnce j.estop ∧
  (∀ h, (i.masks.get h).maskSampled (j.masks.get h) ∧ (i.posReady.get h).sampledOnce (j.posReady.get h) ∧
    (i.ramTop.get h).sampledOnce (j.ramTop.get h) ∧
    (i.toolPresent.get h).sampledOnce (j.toolPresent.get h)) ∧
  j.pair = (match i.pair with
    | .oneDown b window => .oneDown b (window + 1)
    | p => p)

/-- A timed scan is wanted at a head (R65, R83, R112): by a tare short of its scans, or by the dwell its head leads,
whose timer is not at 0. -/
def scanWanted (s : State) (h : HeadId) : Prop :=
  (∃ w, (s.sense h).tare = some w ∧ w.taken < 2 ^ s.setup.tareAverage) ∨
  s.leads h = true ∧ (s.head h).state = .dwell ∧ ∃ n, (s.head h).dwell = some (n + 1)

/-- One period of the 1 MHz filter clock has passed, each thousandth with a tick of the timebase: the encoder
filters have taken a sample (R76), a tick has lowered the armed guards, the dwell timers and a waiting reader's
poll timer by one (R65, R79, R150) and sampled the lines; the queue holds the edges accepted, the timed scans of
a tick (R83), and of the guards it has brought to 0 those that it lets expire before these edges. -/
def periodPassed (s t : State) : Prop :=
  let tick := 1000 ≤ s.micros + 1
  let onA := fun h => (t.sense h).pinA ≠ (s.sense h).levelA
  let onB := fun h => (t.sense h).pinB ≠ (s.sense h).levelB
  t.micros = (if tick then 0 else s.micros + 1) ∧
  (∀ h, t.sense h = { s.sense h with
    pinA := (t.sense h).pinA, pinB := (t.sense h).pinB,
    seenA := decide (onA h) && !(s.sense h).seenA, seenB := decide (onB h) && !(s.sense h).seenB }) ∧
  (∀ h edge, (∃ done, Instr.acceptedEdge h edge done ∈ t.pending) ↔
    ((edge = .lineA ∨ edge = .both) ↔ onA h ∧ (s.sense h).seenA = true) ∧
    ((edge = .lineB ∨ edge = .both) ↔ onB h ∧ (s.sense h).seenB = true)) ∧
  (∀ h, Instr.timedScanTick h ∈ t.pending ↔ tick ∧ scanWanted t h) ∧
  (∀ h, Instr.strokeGuardExpire h ∈ t.pending →
    tick ∧ (t.head h).guardArmed = true ∧ (t.head h).guardCount = 0) ∧
  (∀ h, t.head h = { s.head h with
    guardCount := if tick ∧ (s.head h).guardArmed = true then (s.head h).guardCount - 1
      else (s.head h).guardCount
    dwell := if tick then (s.head h).dwell.map (· - 1) else (s.head h).dwell }) ∧
  t.reader = { s.reader with
    poll := if tick ∧ s.reader.state = .waiting then s.reader.poll.map (· - 1) else s.reader.poll } ∧
  (if tick then s.inputs.ticked t.inputs else t.inputs = s.inputs) ∧
  t.toolBus = { s.toolBus with
    idle := if s.toolBus.transaction.isNone then min 2000 (s.toolBus.idle + 1) else s.toolBus.idle } ∧
  t.control = s.control ∧ t.bus = s.bus ∧ t.rewrite = s.rewrite ∧ t.plans = s.plans ∧ t.tools = s.tools ∧
  sameBoard s t

/-- Which steps of the operator lines, the guards and the timers are due of themselves (R65, R79, R112, R128 to
R131, R150): three equal samples for every line but an ESTOP that shows active, for which one is enough. -/
def duesOf (s : State) : Prop :=
  let i := s.inputs
  let after := fun l : Line => if l.raw ≠ l.level ∧ 3 ≤ l.count then l.raw else l.level
  let released := i.startA.level = true ∧ after i.startA = false ∨ i.startB.level = true ∧ after i.startB = false
  let pressed := i.startA.level = false ∧ after i.startA = true ∨ i.startB.level = false ∧ after i.startB = true
  (.estopAssert ∈ s.due ↔ i.estop.level = false ∧ i.estop.raw = true ∧ 1 ≤ i.estop.count) ∧
  (.estopRelease ∈ s.due ↔ i.estop.shows false) ∧
  (.guardOpen ∈ s.due ↔ i.guard.shows true) ∧ (.guardClose ∈ s.due ↔ i.guard.shows false) ∧
  (∀ a b, .startRelease a b ∈ s.due ↔ a = after i.startA ∧ b = after i.startB ∧ released) ∧
  (∀ a b mask, .startPress a b mask ∈ s.due ↔ a = after i.startA ∧ b = after i.startB ∧ pressed ∧ ¬released ∧
    ∀ n : HeadId, mask.getLsbD n.toNat = (i.masks.get n).level) ∧
  (∀ h, (.posReadyRise h ∈ s.due ↔ (i.posReady.get h).shows true) ∧
    (.posReadyFall h ∈ s.due ↔ (i.posReady.get h).shows false) ∧
    (.ramTopRise h ∈ s.due ↔ (i.ramTop.get h).shows true) ∧
    (.ramTopFall h ∈ s.due ↔ (i.ramTop.get h).shows false) ∧
    (.toolAttach h ∈ s.due ↔ (i.toolPresent.get h).shows true) ∧
    (.toolRemoval h ∈ s.due ↔ (i.toolPresent.get h).shows false) ∧
    (.strokeGuardExpire h ∈ s.due ↔ (s.head h).guardArmed = true ∧ (s.head h).guardCount = 0) ∧
    (.dwellExpire h ∈ s.due ↔ (s.head h).state = .dwell ∧ (s.head h).dwell = some 0) ∧
    (.tareComplete h ∈ s.due ↔ ∃ w, (s.sense h).tare = some w ∧ 2 ^ s.setup.tareAverage ≤ w.taken)) ∧
  (.pairWindowExpire ∈ s.due ↔ ∃ b window, i.pair = .oneDown b window ∧ 500 < window) ∧
  (.pollTimerExpire ∈ s.due ↔ s.reader.state = .waiting ∧ s.reader.poll = some 0)

end Sys2Proof.Machine
end

