-- ==== Sys2Proof/Certificates/Slice0/Obligations.lean ====
section
/-! DEFINITION. The statements for the provers. -/

open Sys2Proof Sys2Proof.Machine

/-! ## The machine as a whole -/

/-- A step with a command at the front of the queue runs that command on the rest. With none waiting the
commands due of themselves are queued and nothing else changes; with none due one period of the filter clock
goes by, each thousandth a tick, which samples the operator's lines and counts armed guards, dwell timers, the
pair window and a waiting reader's poll timer on by one (R65, R76, R79, R83, R128, R129, R131, R150). Due are a
line's change at its third equal sample, ESTOP's assertion at its first, and each counter that has run out. That
a step with no command waiting stands for time is the model's choice (log 2), as are the free levels of the pins
(log 7), which of an edge and the guard's last tick comes first, and the edges after the tick (log 47), the
timed scans after the edges (log 53), no scan at the tick that ends the dwell (log 38), the tool bus's idle time
(log 29), and the MASK levels handed with a press (log 34). -/
def Obligations.StepRunsTheFrontCommand : Prop :=
  (∀ (c : Instr) (rest : List Instr) (s : State), s.pending = c :: rest →
    step s = exec c (s.withPending rest)) ∧
  (∀ s : State, s.pending = [] →
    (∀ i more, s.due = i :: more → step s = .next (s.withPending (i :: more))) ∧
    (s.due = [] → ∃ t, step s = .next t ∧ periodPassed s t)) ∧
  ∀ s : State, duesOf s

/-- Every command is answered by a next state, which leaves the queue as it was. That a command whose premise
fails has no effect is the model's choice (log 1). -/
def Obligations.EveryCommandIsAnsweredAndKeepsTheQueue : Prop :=
  ∀ (i : Instr) (s : State), Answers i s (fun t => t.pending = s.pending)

/-- HELD claims stay pairwise disjoint over every step (R116). -/
def Obligations.StepKeepsHeldClaimsDisjoint : Prop :=
  ∀ s t : State, ClaimsDisjoint s → step s = .next t → ClaimsDisjoint t

/-- Every step keeps the two heads of a gang together and every head outside the motion states at setpoint
0 on its brake (R49, R74). -/
def Obligations.StepKeepsRamsStill : Prop :=
  ∀ s t : State, RamsStill s → step s = .next t → RamsStill t

/-- Every step keeps: no head in a motion state while ESTOP is active or GUARD is open (R68). -/
def Obligations.StepKeepsPressSafe : Prop :=
  ∀ s t : State, PressSafe s → step s = .next t → PressSafe t

/-- At most one bus access is ever in flight. One access in flight is the model's choice (log 3). -/
def Obligations.StepKeepsOneAccessInFlight : Prop :=
  ∀ s t : State, OneInFlight s → step s = .next t → OneInFlight t

/-! ## Resets and registers (chapter 10) -/

/-- Both resets put every block in its reset state, leave no bus access but one already granted, whose result is
discarded, and set the reset cause; the soft reset keeps the endpoint's configuration. Each input level and
accepted encoder level is that of its first sample, whatever it shows; the pair is SPENT when a button is found
pressed; an ESTOP found active is handed on at once, which raises SAFE and RUNST, leaves the device in ESTOP and
finds every head OFFLINE (R76, R128, R129, R132, R137). Every register then reads 0 but IDN, STA with the reset
cause and, in ESTOP, the device state, and EVT with those two events. Choices of the model, not rules: the first
sample made at the end of the reset (log 6), the endpoint's own values after a hardware reset (log 23), the
access in flight (log 33), the count of a disarmed guard and the depth of a disarmed trigger (log 36), and 0 at
an offset inside a register, which is no register's own (log 43). -/
def Obligations.ResetsClearEveryBlock : Prop :=
  ∀ (s : State) (rest : Word),
    Answers .hardwareReset s (fun t =>
      blocksReset s t ∧ controlReset Control.reset t ∧ registersReset 0x01000000#32 t) ∧
    Answers (.softReset rest) s (fun t =>
      blocksReset s t ∧
      controlReset { Control.reset with
        resetCause := .soft, msiSelected := s.control.msiSelected, msiSent := s.control.msiSent,
        barBase := s.control.barBase } t ∧
      registersReset 0x02000000#32 t)

/-- The values the machine has after reset (R47, R95, R114, R142, R168, R171, R178), and the invariants hold
there. -/
def Obligations.ResetValuesAndInvariants : Prop :=
  (State.reset.control.device = .stopped ∧ State.reset.control.area = none ∧
  State.reset.control.setup = none ∧ State.reset.control.evt = 0 ∧ State.reset.control.evten = 0 ∧
  State.reset.control.run = false ∧ State.reset.control.lastRefusal = .none ∧
  State.reset.reader.state = .stopped ∧ State.reset.reader.taken = [] ∧ State.reset.bus = [] ∧
  State.reset.pending = [] ∧ State.reset.toolBus.lastGranted = .h3 ∧
  ∀ h : HeadId,
    (State.reset.head h).state = .offline ∧ (State.reset.head h).current = none ∧
    (State.reset.head h).lastHalt = .none ∧ (State.reset.head h).setpoint = 0 ∧
    (State.reset.head h).brake = true ∧ (State.reset.head h).guardArmed = false ∧
    (State.reset.sense h).depth = 0 ∧ (State.reset.sense h).tareValid = false ∧
    (State.reset.tool h).state = .absent ∧ (State.reset.tool h).toggle = false ∧
    State.reset.plan h = .empty ∧ State.reset.claims.get h = .empty) ∧
  (ClaimsDisjoint State.reset ∧ RamsStill State.reset ∧ PressSafe State.reset ∧ OneInFlight State.reset)

/-- RUN written 1 in STOPPED with no outcome writing in progress starts the device; so does STARTING_ENTRY with
RUN at 1 (R172), but not where that RUN was written in STARTING after the start had been given up (R171). That
RUN at 1 in STOPPED acts as a level is the model's reading (log 28); that writes of a stop still outstanding are
given up at the start is log 14. -/
def Obligations.RunOneStartsAStoppedDevice : Prop :=
  ∀ s : State, s.control.device = .stopped → s.anyWriting = false →
    Answers .runWritten1 s (startBegun s) ∧
    (s.control.run = true → s.control.staleRun = false → Answers .startingEntry s (startBegun s)) ∧
    (s.control.staleRun = true →
      Answers .startingEntry s (fun t => t.control = s.control ∧ sameBlocks s t ∧ sameBus s t))

/-- CTL writes outside the states they act in (R168, R171, R172, R174). RUN written 1 outside STOPPED, or in
STOPPED while a head writes an outcome, only sets RUN and clears the mark that RUN makes no new start. RUN
written 0 outside RUNNING leads SETUP_ERR, a released ESTOP and a quiet FAULT to STOPPED, gives up a start, and
otherwise only clears RUN, as it does during an abort in RUNNING (the model's choice, log 11). ABORT outside
RUNNING and STOPPING is ignored, and RUN takes the value written. Which writes keep a FAULT from being quiet is
the model's choice: every write at the bus and every head's outcome writing (log 46). What a given-up start does
is log 15, and that an access of it that still waits is made first is the model's choice too (log 51). -/
def Obligations.ControlWritesElsewhere : Prop :=
  (∀ s : State, (s.control.device ≠ .stopped ∨ s.anyWriting = true) →
    Answers .runWritten1 s (fun t =>
      t.control = { s.control with run := true, staleRun := false } ∧ sameBlocks s t ∧ sameBus s t)) ∧
  (∀ s : State, (s.control.device ≠ .running ∨ s.control.aborting = true) →
    Answers .runWritten0 s (fun t =>
      t.control.run = false ∧ t.control.device = afterRunZero s ∧
      t.control.startGivenUp = (s.control.startGivenUp || decide (s.control.device = .starting)) ∧
      sameBlocks s t)) ∧
  (∀ (s : State) (run : Bool), s.control.device ≠ .running → s.control.device ≠ .stopping →
    exec (.abort run) s = exec (if run then .runWritten1 else .runWritten0) s)

/-- RUN written 0 in RUNNING (R173): STOPPING with RUNST, the chain reader STOPPED; an order before its stroke
is written STOPPED with DEVICE_STOP and has left its heads at rest, the other heads go on. That the heads are at
rest at once is the model's reading (log 12), and its choice for one that still writes REFUSED or WITHDRAWN (log
40). -/
def Obligations.RunZeroStopsARunningDevice : Prop :=
  ∀ s : State, GangsAligned s → s.control.device = .running → s.control.aborting = false →
    Answers .runWritten0 s (fun t =>
      t.control.run = false ∧ t.control.device = .stopping ∧ flagged .runst t ∧
      t.reader.state = .stopped ∧
      (s.reader.state ≠ .stopped →
        t.reader.heldSlot = none ∧ t.reader.poll = none ∧ t.reader.pendingNudge = false) ∧
      sameTools s t ∧ t.claims = s.claims ∧ t.inputs = s.inputs ∧
      (∀ x o, openOrder s x o → closingBare x o .stopped .deviceStop t) ∧
      ∀ h, ((s.head h).state.beforeStroke = true → (t.head h).state.atRest = true) ∧
        ((s.head h).state.beforeStroke = false → t.head h = s.head h))

/-- ABORT in RUNNING or STOPPING clears RUN whatever it carries and stops the chain reader; a head in a motion
state halts with ABORT_CMD, an order before its stroke is written STOPPED with ABORT_CMD, a HALTED head stays as
it was, every other head is OFFLINE (R58, R68 to R70, R174). The device state shown until STOPPED is the model's
choice (log 11); that a head in PREPARE, ZONE_WAIT or START_WAIT is OFFLINE at once is its reading (log 12), and its
choice for one that still writes REFUSED or WITHDRAWN (log 40). -/
def Obligations.AbortStopsHeadsAndReader : Prop :=
  ∀ (s : State) (run : Bool), GangsAligned s →
    (s.control.device = .running ∨ s.control.device = .stopping) →
    Answers (.abort run) s (fun t =>
      t.control.run = false ∧ t.control.aborting = true ∧ t.control.device = s.control.device ∧
      t.reader.state = .stopped ∧ t.claims = s.claims ∧ sameTools s t ∧ t.inputs = s.inputs ∧
      headsStopped .abortCmd s t ∧
      (∀ x o, openOrder s x o → closingBare x o .stopped .abortCmd t) ∧
      ∀ h, (t.head h).state = .halted ∨ (t.head h).state = .offline)

/-- ABASE_L and ABASE_H are stored in STOPPED, with bits 0 to 11 as 0, and refused BASE_LOCKED elsewhere; each
write sets the last refusal code (R140, R169). An HCMD write with a bad head number or command is refused
BAD_COMMAND and reaches no head; a write to IDN, STA or beyond 0x23 is ignored (R168, R169, R180). Which command
a write is goes by its offset, in CTL by RESET, then ABORT, then RUN, in HCMD by head number and command (R180). -/
def Obligations.RegisterWritesThatStoreOrNothing : Prop :=
  (∀ (s : State) (value : Word),
    Answers (.abaseLWrite value) s (fun t =>
      t.control = (if s.control.device = .stopped
        then { s.control with abaseL := value &&& 0xFFFFF000#32, lastRefusal := .none }
        else { s.control with lastRefusal := .baseLocked }) ∧ sameBlocks s t ∧ sameBus s t) ∧
    Answers (.abaseHWrite value) s (fun t =>
      t.control = (if s.control.device = .stopped
        then { s.control with abaseH := value, lastRefusal := .none }
        else { s.control with lastRefusal := .baseLocked }) ∧ sameBlocks s t ∧ sameBus s t)) ∧
  (∀ s : State,
    (∀ head command, (Instr.badCommand head command).wellFormed = true →
      Answers (.badCommand head command) s (fun t =>
        t.control = { s.control with lastRefusal := .badCommand } ∧ sameBlocks s t ∧ sameBus s t)) ∧
    (∀ target value, Answers (.registerWriteIgnored target value) s (fun t =>
      t.control = s.control ∧ sameBlocks s t ∧ sameBus s t))) ∧
  (∀ value : Word,
    commandOfWrite 0x00 value = some (.registerWriteIgnored .idn value) ∧
    commandOfWrite 0x04 value = some (if value.getLsbD 2 then .softReset value
      else if value.getLsbD 1 then .abort (value.getLsbD 0)
      else if value.getLsbD 0 then .runWritten1 else .runWritten0) ∧
    commandOfWrite 0x08 value = some (.registerWriteIgnored .sta value) ∧
    commandOfWrite 0x0C value = some (.abaseLWrite value) ∧
    commandOfWrite 0x10 value = some (.abaseHWrite value) ∧
    commandOfWrite 0x14 value = some (.nudge value) ∧
    commandOfWrite 0x18 value = some (.evtWrite value) ∧
    commandOfWrite 0x1C value = some (.evtenWrite value) ∧
    (∀ h : HeadId, (value.extractLsb' 0 8).toNat = h.toNat →
      (value.extractLsb' 8 8 = 1 → commandOfWrite 0x20 value = some (.hcmdHalt h)) ∧
      (value.extractLsb' 8 8 = 2 → commandOfWrite 0x20 value = some (.hcmdRelease h))) ∧
    (3 < (value.extractLsb' 0 8).toNat ∨ value.extractLsb' 8 8 ≠ 1 ∧ value.extractLsb' 8 8 ≠ 2 →
      commandOfWrite 0x20 value =
        some (.badCommand (value.extractLsb' 0 8) (value.extractLsb' 8 8))) ∧
    ∀ offset, 0x23 < offset →
      commandOfWrite offset value = some (.registerWriteIgnored (.beyond (offset - 0x23)) value))

/-- NUDGE (R53, R151): the reader as its state gives, a WAITING one reading the anchor's link; every head in
PREPARE to START_WAIT reads its order's withdraw field. That every NUDGE makes a read of its own is the
model's reading (log 25). -/
def Obligations.NudgeReachesReaderAndHeads : Prop :=
  ∀ (s : State) (value : Word),
    Answers (.nudge value) s (fun t =>
      t.reader = nudgedReader s.reader ∧ t.control = s.control ∧ sameHeads s t ∧
      sameTools s t ∧ sameBoard s t ∧ t.inputs = s.inputs ∧
      (s.reader.state = .waiting → reads .linkRead s.reader.anchor 4 t) ∧
      ∀ x o, s.leads x = true → (s.head x).state.beforeStroke = true → (s.head x).current = some o →
        reads (.nudgeRead x) (withdrawOffset o.record) 1 t)

/-- EVT clears the flags written with 1 and sends no message, EVTEN sets the enables; a cause sets its flag,
enabled or not; with MSI a message is sent when the condition rises, by an EVTEN write or by a flag set,
GUARD_CLOSE and a chain fault among the causes; with legacy interrupts the line is asserted while a flag is both
set and enabled (R170). -/
def Obligations.EventRegisterWrites : Prop :=
  (∀ c : Control, c.interruptLine = true ↔ c.msiSelected = false ∧ c.evt &&& c.evten ≠ 0) ∧
  ([Event.done, .idle, .cherr, .halt, .tool, .chwarn, .safe, .runst].map Event.mask =
    [0x01#8, 0x02#8, 0x04#8, 0x08#8, 0x10#8, 0x20#8, 0x40#8, 0x80#8]) ∧
  (∀ (s : State) (e : Event), raise e s = { s with control := flagSet e.mask s.control }) ∧
  (∀ s : State, s.guardOpen = true →
    Answers .guardClose s (fun t => t.control = flagSet 0x40#8 s.control)) ∧
  (∀ s : State, inFlightFor .linkRead s →
    Answers (.linkReadDone none) s (fun t => t.control = flagSet 0x04#8 s.control)) ∧
  ∀ (s : State) (value : Word),
    Answers (.evtWrite value) s (fun t =>
      t.control.evt = s.control.evt &&& ~~~(value.setWidth 8) ∧ t.control.evten = s.control.evten ∧
      t.control = { s.control with evt := t.control.evt } ∧ sameBlocks s t ∧ sameBus s t) ∧
    Answers (.evtenWrite value) s (fun t =>
      t.control.evten = value.setWidth 8 ∧ t.control.evt = s.control.evt ∧
      t.control.msiSent = s.control.msiSent +
        (if s.control.msiSelected ∧ s.control.evt &&& s.control.evten = 0 ∧
            s.control.evt &&& value.setWidth 8 ≠ 0 then 1 else 0) ∧
      t.control.device = s.control.device ∧ t.control.run = s.control.run ∧ sameBlocks s t ∧
      sameBus s t)

/-- HCMD HALT is always accepted (R71): the head, or both heads of its gang, HALTED with HALT_CMD and HALT
raised, and HEAD_BUSY asserted (R49); from every state but HALTED with setpoint 0 and the brake applied. An order in
PREPARE, ZONE_WAIT or START_WAIT is written ABORTED with HALT_CMD, its claim released or its request withdrawn, its
plan emptied (R19, R57, R58, R71). A halt that meets an ARMED or LIVE plan closes it: windows that had closed keep
their verdicts, open ones take NOT_CHECKED with HALTED_OPEN, unopened ones NOT_CHECKED; and the order is written
ABORTED with HALT_CMD, with the entries and counts of that plan (R38, R41, R42, R69). -/
def Obligations.HaltCommandHalts : Prop :=
  ∀ (s : State) (h x : HeadId), GangsAligned s → x = s.lead h →
    Answers (.hcmdHalt h) s (fun t =>
      t.control.lastRefusal = .none ∧ t.control.device = s.control.device ∧ flagged .halt t ∧
      (∀ k ∈ s.unit x, (t.head k).state = .halted ∧ (t.head k).lastHalt = .haltCmd ∧
        t.headBusy k = true) ∧
      ((s.head h).state ≠ .halted → haltedBy .haltCmd (s.unit x) t) ∧
      (∀ o, openOrder s x o → closingBare x o .aborted .haltCmd t) ∧
      ((s.head x).state.beforeStroke = true →
        (∀ k ∈ s.unit x, t.plan k = .empty) ∧
        ((s.head x).claim = .held → t.claimMsgs.get x = s.claimMsgs.get x ++ [.release]) ∧
        ((s.head x).claim = .requested → t.claimMsgs.get x = s.claimMsgs.get x ++ [.withdraw])) ∧
      (∀ p, (s.head x).state.inMotion = true → s.plan x = .built p → p.phase ≠ .closed →
        t.plan x = .built p.halted ∧
        ∀ o, (s.head x).current = some o → (s.head x).outcomeFixed = false →
          (s.head x).writeFailed = false →
          ∃ c, (t.head x).closing = some c ∧ c.order = o ∧ c.stroke = true ∧
            c.result.outcome = .aborted ∧ c.result.reason = .haltCmd ∧
            c.result.entries = p.halted.entries ∧
            c.result.failed = p.halted.entries.countP (fun e => decide (e.verdict = .noEngage ∨
              e.verdict = .buckle ∨ e.verdict = .high ∨ e.verdict = .low ∨ e.verdict = .noData)) ∧
            c.result.notChecked = p.halted.entries.countP (fun e => e.verdict = .notChecked) ∧
            c.result.unjudged = p.halted.entries.countP (fun e => e.verdict = .unjudged) ∧
            c.contactDepth = (s.head x).contactDepth.getD 0 ∧
            c.seatDepth = (s.head x).pressEnd.getD 0) ∧
      othersSame (s.unit x) s t ∧ t.claims = s.claims ∧ sameTools s t ∧
      t.reader = s.reader ∧ t.inputs = s.inputs)

/-- A RELEASE that is refused changes only the last refusal code, which names the first reason of R72's
table that applies. -/
def Obligations.RefusedReleaseChangesOnlyTheCode : Prop :=
  ∀ (s : State) (h : HeadId) (code : RefusalCode),
    code = (if ¬((s.head (s.lead h)).state = .halted ∨ (s.head (s.lead h)).state = .idle ∨
          (s.head (s.lead h)).state = .offline) then .wrongState
      else if s.estopActive then .estopActive
      else if s.guardOpen then .guardOpen
      else if (s.head (s.lead h)).state ≠ .halted ∧ s.ramTop (s.lead h) then .atTop
      else if (s.head (s.lead h)).state = .halted ∧ (s.head (s.lead h)).closing.isSome
        then .outcomePending
      else .none) → code ≠ .none →
    Answers (.hcmdRelease h) s (fun t =>
      t.control = { s.control with lastRefusal := code } ∧ sameBlocks s t ∧ sameBus s t)

/-- An accepted RELEASE (R72, R73): a HALTED head with no outcome writing, or one at rest away from its top,
rises in RECOVER at a quarter of its full-scale speed with its brake released and its guard armed, unless
every ram of the unit is at its top; then each of its heads is at rest at once, in IDLE or OFFLINE by its own
enable bit (R50, R73). That an enabled head rests in OFFLINE and not in IDLE while an abort is under way, the device
still shown RUNNING or STOPPING, is the model's choice (log 11). That one head of a gang at its top while the other
is not holds there at once is the model's reading (log 31). -/
def Obligations.AcceptedReleaseRaisesTheRam : Prop :=
  ∀ (s : State) (h : HeadId), GangsAligned s → s.estopActive = false → s.guardOpen = false →
    ((s.head (s.lead h)).state = .halted ∧ (s.head (s.lead h)).closing = none ∨
      (s.head (s.lead h)).state.atRest = true ∧ s.ramTop (s.lead h) = false) →
    Answers (.hcmdRelease h) s (fun t =>
      t.control.lastRefusal = .none ∧
      ((s.unit (s.lead h)).all s.ramTop = false → t.claims = s.claims ∧
        ∀ k ∈ s.unit (s.lead h), (t.head k).state = .recover ∧
          (s.ramTop k = false →
            (t.head k).setpoint = BitVec.ofNat 12 (setpointFor
              (s.setup.fullScale.get (s.lead h) / 4) (s.setup.fullScale.get (s.lead h))) ∧
            (t.head k).direction = .up ∧ (t.head k).brake = false ∧ (t.head k).guardArmed = true ∧
            (t.head k).guardCount = s.setup.guardInterval.get k)) ∧
      ((s.unit (s.lead h)).all s.ramTop = true →
        ∀ k ∈ s.unit (s.lead h), (t.head k).state = s.restState k ∧ (t.head k).setpoint = 0 ∧
          (t.head k).brake = true))

/-! ## Emergency stop, fault and the end of a stop (sections 7.5, 10.3) -/

/-- ESTOP_ASSERT (R137, R175): SAFE; ESTOP from every state but STARTING, where it is noted for the end of the
access in flight; the reader STOPPED; a head in a motion state halts with ESTOP, an order before its stroke is
written STOPPED with ESTOP, a HALTED head stays as it was, every other head is OFFLINE (R58, R68 to R70). That a
head in PREPARE, ZONE_WAIT or START_WAIT is OFFLINE at once is the model's reading (log 12), and its choice for one
that still writes REFUSED or WITHDRAWN (log 40); that a start's access which still waits is made first is its
choice too (log 51). -/
def Obligations.EstopStopsThePress : Prop :=
  ∀ s : State, GangsAligned s → s.estopActive = false →
    Answers .estopAssert s (fun t =>
      t.estopActive = true ∧ flagged .safe t ∧ t.control.run = s.control.run ∧
      (if s.control.device = .starting then
        t.control.device = .starting ∧ t.control.startEstop = true
      else t.control.device = .estop) ∧
      t.reader.state = .stopped ∧ t.claims = s.claims ∧ sameTools s t ∧
      headsStopped .estop s t ∧
      (∀ x o, openOrder s x o → closingBare x o .stopped .estop t) ∧
      ∀ h, (t.head h).state = .halted ∨ (t.head h).state = .offline)

/-- ESTOP_RELEASE (R138, R175): SAFE, and STOPPED from ESTOP when RUN reads 0; nothing restarts. STOP_COMPLETE
(R173, R174): when no head is in PREPARE to RETRACT and the stop's writes have completed, the device enters
STOPPED and heads in IDLE go to OFFLINE; with RUN at 1 it goes on to STARTING, at once when no head writes an
outcome. FAULT_EXIT (R176): FAULT is left for STOPPED when RUN reads 0 and the fault's writes have ended. The mark
of an abort is the model's (log 11), as are the outcome a HALTED head may still be writing (log 41) and which writes
hold back STOPPED (log 45) and the exit from FAULT (log 46). -/
def Obligations.EndsOfEstopStopAndFault : Prop :=
  (∀ s : State, s.estopActive = true →
    Answers .estopRelease s (fun t =>
      t.estopActive = false ∧ flagged .safe t ∧
      t.control.device = (if s.control.device = .estop ∧ s.control.run = false then .stopped
        else s.control.device) ∧
      sameHeads s t ∧ sameTools s t ∧ sameBoard s t ∧ t.reader = s.reader)) ∧
  (∀ s : State, GangsAligned s → s.control.run = false →
    (s.stopDone = true →
      Answers .stopComplete s (fun t =>
        t.control.device = .stopped ∧ t.control.aborting = false ∧ flagged .runst t ∧
        (∀ h, (t.head h).state = if (s.head h).state = .idle then .offline else (s.head h).state) ∧
        sameTools s t ∧ sameBoard s t ∧ t.reader = s.reader ∧ t.inputs = s.inputs)) ∧
    (s.control.device = .fault → s.faultQuiet = true →
      Answers .faultExit s (fun t =>
        t.control.device = .stopped ∧ flagged .runst t ∧ sameBlocks s t))) ∧
  (∀ s : State, GangsAligned s → s.control.run = true → s.stopDone = true →
    Answers .stopComplete s (fun t =>
      t.control.run = true ∧ t.control.aborting = false ∧ flagged .runst t ∧
      (s.anyWriting = true → t.control.device = .stopped ∧ t.reader = s.reader) ∧
      (s.anyWriting = false → t.control.device = .starting ∧ t.control.setupError = 0 ∧
        t.control.startBase = s.control.abaseH ++ s.control.abaseL ∧
        ∃ r ∈ t.bus, r.access = .setupRead ∧ r.fate = .live ∧ r.len = 256 ∧
          r.addr = s.control.abaseH ++ s.control.abaseL + 256) ∧
      (∀ h, (t.head h).state = if (s.head h).state = .idle then .offline else (s.head h).state) ∧
      sameTools s t ∧ sameBoard s t ∧ t.inputs = s.inputs))

/-- A bus error on a write outside FAULT and ESTOP is a device fault (R176): FAULT with RUNST, the reader
STOPPED; a head in a motion state halts with FAULT, a HALTED head stays as it was but for the writing that has
failed, every other head is OFFLINE (R68 to R70). A start that ESTOP has met goes on to ESTOP, and the accesses of
a start are given up. In FAULT and ESTOP the device state does not change. What becomes of a start that ESTOP had
met is the model's choice (log 15); that a head in PREPARE, ZONE_WAIT or START_WAIT is OFFLINE at once is its
reading (log 12), and its choice for one that still writes REFUSED or WITHDRAWN (log 40). -/
def Obligations.WriteErrorIsADeviceFault : Prop :=
  ∀ (s : State) (r : BusReq) (rest : List BusReq), GangsAligned s → s.bus = r :: rest →
    r.granted = true → r.access.isRead = false → r.fate ≠ .orphaned →
    Answers .busWriteError s (fun t =>
      ((s.control.device = .fault ∨ s.control.device = .estop) →
        t.control.device = s.control.device) ∧
      (s.control.device ≠ .fault → s.control.device ≠ .estop → s.control.startEstop = false →
        t.control.device = .fault ∧ flagged .runst t ∧ t.reader.state = .stopped ∧
        (∀ h, (s.head h).state.inMotion = true → haltedBy .fault [h] t) ∧
        (∀ h, (s.head h).state = .halted → (t.head h).state = .halted ∧
          (t.head h).lastHalt = (s.head h).lastHalt ∧ (t.head h).claim = (s.head h).claim ∧
          (t.head h).contactReached = (s.head h).contactReached) ∧
        (∀ q ∈ t.bus, q.access = .setupRead ∨ q.access = .headerAll → q.fate ≠ .live) ∧
        ∀ h, (t.head h).state = .halted ∨ (t.head h).state = .offline) ∧
      (s.control.device ≠ .fault → s.control.device ≠ .estop → s.control.startEstop = true →
        t.control.device = if s.control.run = false ∧ s.estopActive = false then .stopped
          else .estop) ∧
      t.claims = s.claims ∧ sameTools s t ∧ t.inputs = s.inputs)

/-! ## Starting (R141, R142, R172, R177) -/

/-- SETUP_READ_DONE: the first field out of range, in the order of the table, gives SETUP_ERR with that field's
code, an unreadable block SETUP_ERR with 0x01, and the taken area and setup copy stay as they were (R141, R177);
a block that passes is adopted, its fields the setup copy, channels are OK and tares invalid, and the whole
header is being written. A start that RUN 0 has given up ends in STOPPED, one that ESTOP has met in ESTOP, or
STOPPED when that may be left at once (R172, R175), and a RUN written 1 again meanwhile makes no new start
(R171); that its block is not checked is the model's reading (log 15). That the taken area a failed check leaves
as it was is none, dropped at the entry to STARTING, is its reading too (log 14). -/
def Obligations.SetupReadDecidesTheStart : Prop :=
  (∀ (s : State) (data : Option (List Byte)), inFlightFor .setupRead s →
    s.control.device = .starting → s.startLost = true →
    Answers (.setupReadDone data) s (startAbandoned s)) ∧
  ∀ (s : State) (data : Option (List Byte)), inFlightFor .setupRead s →
    s.control.device = .starting → s.startLost = false →
    (∀ code, (data = none ∧ code = 0x01#8 ∨ ∃ d, data = some d ∧ setupRefusal d = some code) →
      Answers (.setupReadDone data) s (fun t =>
        t.control.device = .setupErr ∧ t.control.setupError = code ∧ flagged .runst t ∧
        t.control.setup = s.control.setup ∧ t.control.area = s.control.area ∧ sameBlocks s t)) ∧
    (∀ d, data = some d → setupRefusal d = none →
      Answers (.setupReadDone data) s (fun t => ∃ c, copiesSetup d c ∧
        t.control.device = .starting ∧ t.control.setup = some c ∧
        t.control.area = some { base := s.control.startBase, size := c.areaSize } ∧
        t.reader.anchor = c.lead ∧ t.reader.expectedTurn = !c.initialTurn ∧ t.reader.taken = [] ∧
        t.reader.queues = Four.all [] ∧ t.reader.completed = 0 ∧ t.reader.takenCount = 0 ∧
        (∀ h, ∀ ch ∈ (t.sense h).channels, ch.health = .ok ∧ ch.glitches = 0) ∧
        (∀ h, (t.sense h).tareValid = false ∧ (t.sense h).strokesSinceTare = 0) ∧
        (∃ r ∈ t.bus, r.access = .headerAll ∧ r.fate = .live ∧ r.addr = s.control.startBase + 0) ∧
        t.heads = s.heads ∧ sameTools s t ∧ sameBoard s t ∧ t.inputs = s.inputs))

/-- START_HEADER_WRITE_DONE (R172): RUNNING with RUNST; the reader READING the anchor's link; every enabled
head in OFFLINE is IDLE; a tool present is in IDENTIFY with its record cleared, any other ABSENT. A start that
RUN 0 has given up, or that ESTOP has met, ends in STOPPED or ESTOP, its taken area and setup copy kept (R172,
R175), and a RUN written 1 again meanwhile makes no new start (R171). -/
def Obligations.HeaderWrittenStartsRunning : Prop :=
  (∀ s : State, inFlightFor .headerAll s → s.control.device = .starting → s.startLost = true →
    Answers .startHeaderWriteDone s (startAbandoned s)) ∧
  ∀ s : State, GangsAligned s → inFlightFor .headerAll s → s.control.device = .starting →
    s.startLost = false →
    Answers .startHeaderWriteDone s (fun t =>
      t.control.device = .running ∧ flagged .runst t ∧ t.reader.state = .reading ∧
      t.reader.op = .link ∧ reads .linkRead s.reader.anchor 4 t ∧
      (∀ h, (t.head h).state =
        if (s.head h).state = .offline ∧ s.setup.enabled h then .idle else (s.head h).state) ∧
      (∀ h, (t.tool h).state = (if s.toolPresent h then .identify else .absent) ∧
        (t.tool h).toolType = 0 ∧ (t.tool h).tines = 0) ∧
      t.claims = s.claims ∧ t.inputs = s.inputs)

/-! ## Depth, triggers and scans (chapter 4) -/

/-- ACCEPTED_EDGE (R77, R78): the depth and the accepted levels of the head, and no other head's depth or levels.
What the filter accepts at a sample (R76): a line whose level differs at this sample and differed at the one
before, each line apart; the sample itself changes neither level nor depth. -/
def Obligations.EdgeMovesTheDepth : Prop :=
  (∀ (n : Sense) (a b : Bool),
    (n.filter a b).1 = { n with
      pinA := a, pinB := b, seenA := a ≠ n.levelA && !n.seenA, seenB := b ≠ n.levelB && !n.seenB } ∧
    (n.filter a b).2 =
      (if a ≠ n.levelA ∧ n.seenA then (if b ≠ n.levelB ∧ n.seenB then some .both else some .lineA)
       else if b ≠ n.levelB ∧ n.seenB then some .lineB else none)) ∧
  ∀ (s : State) (h : HeadId) (edge : EncoderEdge) (done : Converted),
    Answers (.acceptedEdge h edge done) s (fun t =>
      (t.sense h).depth = depthAfter s h edge ∧
      (t.sense h).levelA = ((s.sense h).levelA ^^ decide (edge ≠ .lineB)) ∧
      (t.sense h).levelB = ((s.sense h).levelB ^^ decide (edge ≠ .lineA)) ∧
      (∀ k, k ≠ h → (t.sense k).depth = (s.sense k).depth ∧ (t.sense k).levelA = (s.sense k).levelA ∧
        (t.sense k).levelB = (s.sense k).levelB) ∧
      sameTools s t ∧ t.claims = s.claims ∧ t.reader = s.reader ∧ t.inputs = s.inputs)

/-- ACCEPTED_EDGE at a head that is not half of a gang (R79 to R82): an accepted edge of one line reloads an
armed guard, a two-line jump does not; an armed step trigger whose next depth is reached fires and steps on by
one pitch, with an overrun when the converter is still scanning and a scan otherwise; an edge that does not move
the depth downward fires nothing. At a gang that the edge does not skew: an edge at the companion fires nothing;
a firing of the primary starts a scan on each converter that is IDLE, and is one overrun when either is SCANNING
(R82, R126). Choices of the model: the converter's end is an operand of the edge (log 8); a trigger below 0 that
the depth has passed by becoming 0 (R78) fires at the next edge that moves the depth downward (log 44). The
order inside one edge is log 19. -/
def Obligations.EdgeReloadsGuardAndFiresTrigger : Prop :=
  (∀ (s : State) (h : HeadId) (edge : EncoderEdge) (done : Converted) (o : Order),
    (s.head h).gang = true → (s.head h.primary).gang = true → (s.head h.primary).current = some o →
    ¬s.setup.gangSkew < (gangDepth s h edge h.primary - gangDepth s h edge h.companion).natAbs →
    Answers (.acceptedEdge h edge done) s (fun t =>
      (t.head h).guardCount = (if (s.head h).guardArmed ∧ edge ≠ .both
        then s.setup.guardInterval.get h else (s.head h).guardCount) ∧
      (∀ k, (t.head k).state = (s.head k).state) ∧
      (h = h.companion → (t.sense h.primary).firings = (s.sense h.primary).firings ∧
        (t.sense h.primary).overruns = (s.sense h.primary).overruns ∧
        (t.sense h.primary).nextTrigger = (s.sense h.primary).nextTrigger) ∧
      (h = h.primary →
        if triggerReached s h edge then
          (t.sense h).nextTrigger = depthAfter s h edge + o.samplePitch ∧
          firedBoth .step (depthAfter s h edge) h ((s.sense h).scanning && !done.own)
            ((s.sense h.companion).scanning && !done.companion) s t
        else
          (t.sense h).nextTrigger = (s.sense h).nextTrigger ∧
          (t.sense h).firings = (s.sense h).firings ∧ (t.sense h).overruns = (s.sense h).overruns))) ∧
  ∀ (s : State) (h : HeadId) (edge : EncoderEdge) (done : Converted) (o : Order),
    (s.head h).gang = false → (s.head h).current = some o →
    Answers (.acceptedEdge h edge done) s (fun t =>
      (t.head h).guardCount = (if (s.head h).guardArmed ∧ edge ≠ .both
        then s.setup.guardInterval.get h else (s.head h).guardCount) ∧
      (t.head h).state = (s.head h).state ∧
      (if triggerReached s h edge then
        (t.sense h).nextTrigger = depthAfter s h edge + o.samplePitch ∧
        (if (s.sense h).scanning ∧ done.own = false then
          (t.sense h).firings = (s.sense h).firings ∧
          (t.sense h).overruns = min 65535 ((s.sense h).overruns + 1)
        else
          (t.sense h).firings = (s.sense h).firings ++
            [plainFiring .step (depthAfter s h edge)] ∧
          (t.sense h).overruns = (s.sense h).overruns ∧ (t.sense h).scanning = true)
      else
        (t.sense h).nextTrigger = (s.sense h).nextTrigger ∧
        (t.sense h).firings = (s.sense h).firings ∧ (t.sense h).overruns = (s.sense h).overruns) ∧
      (∀ k, k ≠ h → t.head k = s.head k))

/-- SKEW (R75): an edge that leaves the depths of a gang more than the gang skew limit apart halts both heads,
from APPROACH until the first of them is at its top. STALL (R68, R79): an armed guard at 0 is disarmed and
halts the unit in the states R68 names. POSITION_LOST (R60, R68): POS_READY falling halts the unit from APPROACH to
RETRACT, for either head of a gang; a unit that reads its withdraw field for a start notes the fall and changes in
nothing else; elsewhere no head changes. -/
def Obligations.HaltCausesOfAStrokeHalt : Prop :=
  (∀ (s : State) (h : HeadId) (edge : EncoderEdge) (done : Converted), GangsAligned s →
    (s.head h).gang = true → (s.head h).state.inStroke = true →
    (s.head h.primary).atTop = false → (s.head h.companion).atTop = false →
    s.setup.gangSkew <
      ((if h = h.primary then depthAfter s h edge else (s.sense h.primary).depth) -
       (if h = h.companion then depthAfter s h edge
        else (s.sense h.companion).depth)).natAbs →
    Answers (.acceptedEdge h edge done) s (fun t =>
      haltedBy .skew [h.primary, h.companion] t ∧ t.claims = s.claims)) ∧
  (∀ (s : State) (h : HeadId), (s.head h).guardArmed = true → (s.head h).guardCount = 0 →
    Answers (.strokeGuardExpire h) s (fun t =>
      (t.head h).guardArmed = false ∧ t.claims = s.claims ∧ sameTools s t ∧ t.reader = s.reader ∧
      ((s.head (s.lead h)).state = .approach ∨ (s.head (s.lead h)).state = .seek ∨
        (s.head (s.lead h)).state = .press ∨ (s.head (s.lead h)).state = .retract ∨
        (s.head (s.lead h)).state = .recover → haltedBy .stall (s.unit (s.lead h)) t))) ∧
  (∀ (s : State) (h : HeadId), s.posReady h = true →
    Answers (.posReadyFall h) s (fun t =>
      t.posReady h = false ∧ t.claims = s.claims ∧ sameTools s t ∧ t.reader = s.reader ∧
      (if (s.head (s.lead h)).state.inStroke = true
       then haltedBy .positionLost (s.unit (s.lead h)) t
       else if (s.head (s.lead h)).startRead.isSome = true then
         t.head (s.lead h) = { s.head (s.lead h) with posLost := true } ∧
         (∀ k, k ≠ s.lead h → t.head k = s.head k) ∧ t.senses = s.senses ∧ t.plans = s.plans
       else sameHeads s t)))

/-- TIMED_SCAN_TICK (R81 to R83, R112): a tare that wants scans starts one on an IDLE converter and skips the
tick on a SCANNING one; in DWELL, with no tare, a scan starts at the depth of the tick, or an overrun is
counted; in a gang's DWELL the primary's tick starts a scan on each converter that is IDLE, and one overrun is
counted when either is SCANNING. A converter that has converted its last tine before its partner is IDLE;
whether the one with the fewer tines has done so by the tick is a free value, the model's choice (log 8). -/
def Obligations.TimedTicksStartScans : Prop :=
  ∀ (s : State) (h : HeadId) (done : Converted), done = s.convertedByTick h →
    (s.taring h = true →
      Answers (.timedScanTick h) s (fun t =>
        t.heads = s.heads ∧ (t.sense h).overruns = (s.sense h).overruns ∧
        (t.sense h).scanning = true ∧
        (t.sense h).firings = (if (s.sense h).scanning && !done.own then (s.sense h).firings
          else (s.sense h).firings ++ [plainFiring .tare (s.sense h).depth]) ∧
        ∀ k, k ≠ h → t.sense k = s.sense k)) ∧
    (s.taring h = false → s.dwelling h = true → (s.head h).gang = false →
      Answers (.timedScanTick h) s (fun t =>
        t.heads = s.heads ∧ (t.sense h).scanning = true ∧
        (t.sense h).overruns = (if (s.sense h).scanning && !done.own
          then min 65535 ((s.sense h).overruns + 1) else (s.sense h).overruns) ∧
        (t.sense h).firings = (if (s.sense h).scanning && !done.own then (s.sense h).firings
          else (s.sense h).firings ++ [plainFiring .dwell (s.sense h).depth]))) ∧
    (s.taring h = false → s.dwelling h = true → (s.head h).gang = true →
      Answers (.timedScanTick h) s (fun t =>
        t.heads = s.heads ∧
        firedBoth .dwell (s.sense h).depth h ((s.sense h).scanning && !done.own)
          ((s.sense h.companion).scanning && !done.companion) s t))

/-- SCAN_COMPLETE of a tare's scan (R83, R112): the raw readings join the sums, one scan is counted, and no
channel, force or head changes. TARE_COMPLETE (R112): each channel below T judged on its mean, the tare valid,
strokes since tare 0. A channel whose mean is within the tare offset limit takes it as its offset and loses a TARE
or REVERSED fault, to SUSPECT with CHWARN when its glitch counter is 128 or more; one beyond it keeps its offset
and becomes FAULTED TARE, with CHWARN unless it was FAULTED; a GLITCH fault stays in both cases (R88, R112). -/
def Obligations.TareScansAreSummedAndJudged : Prop :=
  (∀ (s : State) (h : HeadId) (own companion : List Raw) (race : SampleRace) (f : Firing)
    (rest : List Firing) (w : Tare), (s.sense h).firings = f :: rest → f.kind = .tare →
    f.discard = false → (s.sense h).tare = some w →
    Answers (.scanComplete h own companion race) s (fun t =>
      (t.sense h).tare = some { sums := addReadings w.sums own, taken := w.taken + 1 } ∧
      (t.sense h).channels = (s.sense h).channels ∧ (t.sense h).latest = (s.sense h).latest ∧
      (t.sense h).firings = rest ∧ t.heads = s.heads ∧ t.plans = s.plans)) ∧
  (∀ (s : State) (h : HeadId) (w : Tare), (s.sense h).tare = some w → tareScans s.setup ≤ w.taken →
    Answers (.tareComplete h) s (fun t =>
      (t.sense h).tare = none ∧ (t.sense h).tareValid = true ∧ (t.sense h).strokesSinceTare = 0 ∧
      (t.sense h).channels = (settleTares s.setup.tareOffsetLimit (tareScans s.setup) w.sums
        (s.sense h).channels).1 ∧
      (∀ (i : Nat) (ch : Channel), (s.sense h).channels[i]? = some ch →
        (w.sums[i]? = none → (t.sense h).channels[i]? = some ch) ∧
        (∀ sum : Int, w.sums[i]? = some sum → ∃ after : Channel, (t.sense h).channels[i]? = some after ∧
          after.glitches = ch.glitches ∧
          (if s.setup.tareOffsetLimit < (sum.tdiv (2 ^ s.setup.tareAverage)).natAbs then
            after.offset = ch.offset ∧
            after.health = (if ch.health = .faulted .glitch then .faulted .glitch else .faulted .tare) ∧
            (ch.health = .ok ∨ ch.health = .suspect → flagged .chwarn t)
          else
            after.offset = sum.tdiv (2 ^ s.setup.tareAverage) ∧
            after.health = (if ch.health = .faulted .tare ∨ ch.health = .faulted .reversed then
              (if ch.glitches < 128 then .ok else .suspect) else ch.health) ∧
            ((ch.health = .faulted .tare ∨ ch.health = .faulted .reversed) → 128 ≤ ch.glitches →
              flagged .chwarn t)))) ∧
      sameTools s t ∧ t.claims = s.claims ∧ t.reader = s.reader))

/-! ## The stroke (chapter 3) -/

/-- SCAN_COMPLETE: a sample of APPROACH short of the approach end whose sum force reaches the contact threshold
halts with EARLY_CONTACT (R61); an overforce sample halts with OVERFORCE in SEEK, in PRESS unless an outstanding
PIN_HALT request reaches the head first, and at a timed scan in DWELL (R62, R63, R65). The race of a PIN_HALT
request with a sample is an operand (log 9). The sample of a single head's scan: its depth that of the firing,
each tine's channel as its reading makes it, its sum force the sum of the present forces, which is the latest
sum force and, when greater, the peak (R90, R91). A gang's sample (R82, R126): the primary's tines, then the
companion's, each processed with its own tool and channels, a tool on which no scan was started all missing; the
sum over both; latest and peak the primary's, while the companion's, its history and its contact detection stay.
A reading: a FAULTED channel's is missing; one at a limit of the converter, or further than the slew limit from
the last present force, is missing and a glitch; after contact one below the negative reverse threshold is
missing and faults its channel REVERSED; any other is present with its calibrated force (R84 to R88). -/
def Obligations.ForceTestsHalt : Prop :=
  (∀ (s : State) (h : HeadId) (own companion : List Raw) (race : SampleRace) (f : Firing)
    (rest : List Firing) (o : Order), (s.sense h).firings = f :: rest → f.discard = false →
    (s.head h).current = some o →
    (f.kind = .step → (s.head h).state = .approach →
      (sampleOf s h f rest own companion).depth < o.approachEnd →
      s.setup.contactThreshold ≤ (sampleOf s h f rest own companion).sum →
      Answers (.scanComplete h own companion race) s (haltedBy .earlyContact (s.unit h))) ∧
    (f.kind = .step → (s.head h).state = .seek →
      tooStrong s h o (sampleOf s h f rest own companion) →
      Answers (.scanComplete h own companion race) s (haltedBy .overforce (s.unit h))) ∧
    (f.kind = .step → (s.head h).state = .press →
      s.pinHaltAsked h = false ∨ race.requestArrives = false →
      tooStrong s h o (sampleOf s h f rest own companion) →
      Answers (.scanComplete h own companion race) s (haltedBy .overforce (s.unit h))) ∧
    (f.kind = .dwell → (s.head h).state = .dwell →
      tooStrong s h o (sampleOf s h f rest own companion) →
      Answers (.scanComplete h own companion race) s (haltedBy .overforce (s.unit h)))) ∧
  (∀ (s : State) (h : HeadId) (own companion : List Raw) (race : SampleRace) (f : Firing)
    (rest : List Firing), (s.sense h).firings = f :: rest → f.discard = false → f.kind ≠ .tare →
    f.own = true → (s.head h).gang = false → f.companion = false →
    Answers (.scanComplete h own companion race) s (fun t =>
      let r := scanTines s.setup (s.head h).contactReached (s.tool h).tines (s.tool h).gains own
        (s.sense h).channels
      let smp := sampleOf s h f rest own companion
      (t.sense h).channels = r.channels ∧ (r.warn = true → flagged .chwarn t) ∧
      smp.depth = f.depth ∧ smp.own = r.values ∧ smp.companion = [] ∧
      smp.sum = (r.values.filterMap id).sum ∧
      (t.sense h).latest = smp.sum ∧ (t.sense h).peak = max (s.sense h).peak smp.sum)) ∧
  (∀ (s : State) (h k : HeadId) (own companion : List Raw) (race : SampleRace) (f : Firing)
    (rest : List Firing), (s.sense h).firings = f :: rest → f.discard = false → f.kind ≠ .tare →
    (s.head h).gang = true → h = h.primary → k = h.companion →
    Answers (.scanComplete h own companion race) s (fun t =>
      let r := scannedOr f.own (s.head h).contactReached s h own
      let q := scannedOr f.companion (s.head h).contactReached s k companion
      let smp := sampleOf s h f rest own companion
      (t.sense h).channels = r.channels ∧ (t.sense k).channels = q.channels ∧
      (r.warn = true ∨ q.warn = true → flagged .chwarn t) ∧
      smp.depth = f.depth ∧ smp.own = r.values ∧ smp.companion = q.values ∧
      smp.ownHealth = (r.channels.take (s.tool h).tines).map (·.health) ∧
      smp.companionHealth = (q.channels.take (s.tool k).tines).map (·.health) ∧
      smp.sum = ((r.values ++ q.values).filterMap id).sum ∧
      (t.sense h).latest = smp.sum ∧ (t.sense h).peak = max (s.sense h).peak smp.sum ∧
      (t.sense k).latest = (s.sense k).latest ∧ (t.sense k).peak = (s.sense k).peak ∧
      (t.sense k).history = (s.sense k).history ∧ (t.sense k).contact = (s.sense k).contact)) ∧
  (∀ (c : Setup) (reverse : Bool) (n : Nat) (gains : List Nat) (raws : List Raw) (chs : List Channel),
    n ≤ chs.length → ∀ i ch, chs[i]? = some ch →
      let r := scanTines c reverse n gains raws chs
      let one := ch.read c reverse (gains.getD i 0) (raws.getD i 0)
      (i < n → r.channels[i]? = some one.1 ∧ r.values[i]? = some one.2.1 ∧
        (one.2.2 = true → r.warn = true)) ∧
      (n ≤ i → r.channels[i]? = some ch) ∧ r.values.length = n) ∧
  (∀ (c : Setup) (reverse : Bool) (gain : Nat) (raw : Raw) (ch : Channel),
    let force := ((raw.toInt - ch.offset) * gain).tdiv 16384
    let bad := raw.toInt = -32768 ∨ raw.toInt = 32767 ∨
      ∃ ref, ch.slewRef = some ref ∧ c.slewLimit < (force - ref).natAbs
    let count := min 255 (ch.glitches + 1)
    (∀ cause, ch.health = .faulted cause → ch.read c reverse gain raw = (ch, none, false)) ∧
    (ch.health = .ok ∨ ch.health = .suspect →
      (bad → ch.read c reverse gain raw =
        ({ ch with
            glitches := count
            health := if c.glitchLimit ≤ count then .faulted .glitch
              else if 128 ≤ count ∧ ch.health = .ok then .suspect else ch.health },
          none, decide (c.glitchLimit ≤ count ∨ 128 ≤ count ∧ ch.health = .ok))) ∧
      (¬bad → reverse = true → force < -(c.reverseThreshold : Int) →
        ch.read c reverse gain raw = ({ ch with health := .faulted .reversed }, none, true)) ∧
      (¬bad → ¬(reverse = true ∧ force < -(c.reverseThreshold : Int)) →
        ch.read c reverse gain raw = ({ ch with slewRef := some force }, some force, false))))

/-- Contact detection (R92, R93): a sample whose sum force is at the contact threshold qualifies: it raises the
run count, is the candidate depth of a run that begins, is the last qualifying depth, and confirms contact when
the run count reaches the contact count; one that does not, at or past the last qualifying depth plus the reset
distance, drops the run; after confirmation no sample is taken. SCAN_COMPLETE in SEEK, and in APPROACH at or
past the approach end, where the sample enters SEEK with contact cleared and is its first (R61, R62, R93):
OVERFORCE halts; else a sample that confirms contact fixes Dc as the first depth of its run and sets the contact
reached mark, whatever the seek limit, makes the plan LIVE, has it take the history's samples from the one at Dc
on, oldest first (R22 to R24), and is the first sample of PRESS: it ends the press (R64), or halts with PIN_HALT
by a request it or an older replayed sample has raised (R31, R63, log 9), or leaves the head in PRESS at the
press speed; one that does not, at or past the seek limit, begins the results writing of NO_CONTACT in SEEK,
setpoint 0, brake released, guard disarmed; one short of it goes on in SEEK at the seek speed. In a gang it is
the primary's sample, and both heads move together (R74, R126). -/
def Obligations.SeekEndsInContactOrAtItsLimit : Prop :=
  (∀ (c : Setup) (depth sum : Int) (x : Contact),
    let t := x.take c depth sum
    (x.confirmed = true → t = x) ∧
    (x.confirmed = false →
      (c.contactThreshold ≤ sum →
        t.run = x.run + 1 ∧ t.candidate = (if x.run = 0 then some depth else x.candidate) ∧
        t.lastQualifying = some depth ∧ (t.confirmed = true ↔ x.run + 1 = c.contactCount)) ∧
      (sum < c.contactThreshold → x.run = 0 → t = x) ∧
      (sum < c.contactThreshold → 0 < x.run → ∀ last, x.lastQualifying = some last →
        t = if last + c.contactReset ≤ depth then
            { run := 0, candidate := none, lastQualifying := none, confirmed := false }
          else x))) ∧
  ∀ (s : State) (h : HeadId) (own companion : List Raw) (race : SampleRace) (f : Firing)
    (rest : List Firing) (o : Order) (smp : Sample) (before found : Contact), GangsAligned s →
    (s.sense h).firings = f :: rest → f.discard = false → f.kind = .step →
    (s.head h).current = some o → s.leads h = true →
    smp = sampleOf s h f rest own companion →
    ((s.head h).state = .seek ∧ before = (s.sense h).contact ∨
      (s.head h).state = .approach ∧ o.approachEnd ≤ smp.depth ∧
        before = { run := 0, candidate := none, lastQualifying := none, confirmed := false }) →
    found = before.take s.setup smp.depth smp.sum →
    (tooStrong s h o smp →
      Answers (.scanComplete h own companion race) s (haltedBy .overforce (s.unit h))) ∧
    (¬tooStrong s h o smp → found.confirmed = true →
      Answers (.scanComplete h own companion race) s (fun t =>
        (t.head h).contactReached = true ∧
        (t.head h).contactDepth = some (found.candidate.getD smp.depth) ∧
        (∀ k ∈ s.unit h, (t.head k).state = .press ∨ (t.head k).state = .dwell ∨
          (t.head k).state = .halted) ∧
        ∀ p q, s.plan h = .built p →
          q = replayed s.setup.settleLimit h (found.candidate.getD smp.depth)
            (replayOf (found.candidate.getD smp.depth) (addHistory (s.sense h).history smp))
            (p.markFaults t.channelFaulted) →
          let reached := seatReached o (s.sense h).history smp ∨ o.pressLimit ≤ smp.depth
          (q.asked = false ∨ race.requestArrives = false → reached →
            pressEndedAt smp (fun _ => .press) s h o t) ∧
          (q.asked = false ∨ race.requestArrives = false → ¬reached →
            t.plan h = .built q ∧
            ∀ k ∈ s.unit h, (t.head k).state = .press ∧ (t.head k).direction = .down ∧
              (t.head k).brake = false ∧
              (t.head k).setpoint = BitVec.ofNat 12
                (setpointFor o.pressSpeed (s.setup.fullScale.get h))) ∧
          (q.asked = true → race.requestArrives = true →
            haltedBy .pinHalt (s.unit h) t ∨ reached ∧ pressEndedAt smp (fun _ => .press) s h o t))) ∧
    (¬tooStrong s h o smp → found.confirmed = false → o.seekLimit ≤ smp.depth →
      (∃ p, s.plan h = .built p) →
      Answers (.scanComplete h own companion race) s (fun t =>
        (∀ k ∈ s.unit h, (t.head k).state = .seek ∧ (t.head k).setpoint = 0 ∧
          (t.head k).brake = false ∧ (t.head k).guardArmed = false) ∧
        (t.sense h).triggerArmed = false ∧ (t.head h).outcomeFixed = true ∧
        ∃ c, (t.head h).closing = some c ∧ c.order = o ∧ c.result.outcome = .fail ∧
          c.result.reason = .noContact ∧ c.stroke = true)) ∧
    (¬tooStrong s h o smp → found.confirmed = false → smp.depth < o.seekLimit →
      Answers (.scanComplete h own companion race) s (fun t =>
        (∀ k ∈ s.unit h, (t.head k).state = .seek) ∧ (t.sense h).contact = found ∧
        (t.head h).contactReached = (s.head h).contactReached ∧
        ((s.head h).state = .approach → ∀ k ∈ s.unit h,
          (t.head k).setpoint = BitVec.ofNat 12
            (setpointFor o.seekSpeed (s.setup.fullScale.get h)) ∧
          (t.head k).direction = .down ∧ (t.head k).brake = false)))

/-- SCAN_COMPLETE in PRESS (R31, R63, R64). A PIN_HALT request asked earlier that reaches the head at this
sample halts with PIN_HALT. Else, without overforce, the evaluator takes the sample; the first sample that meets
the seat condition of the order's seat mode or reaches the press limit ends the press: setpoint 0, brake
released, guard and trigger disarmed, its depth recorded, the evaluator told whether the seat condition was met
(R39); DWELL with the order's dwell time, or the results writing at once. A sample that does neither halts with
PIN_HALT when it has asked for a halt and the request reaches the head, and otherwise leaves the unit in PRESS
as it was. In a gang it is the primary's sample, and both heads stop and enter DWELL together (R74, R126).
Choices of the model: when a request arrives, and whether the evaluator takes the sample before such a halt, are
operands (log 9); channels the sample has FAULTED are marked after it (log 20); the direction sent with setpoint
0 in PRESS (log 48). -/
def Obligations.PressEnds : Prop :=
  ∀ (s : State) (h : HeadId) (own companion : List Raw) (race : SampleRace) (f : Firing)
    (rest : List Firing) (o : Order) (smp : Sample) (p : Plan),
    (s.sense h).firings = f :: rest → f.discard = false → f.kind = .step →
    (s.head h).current = some o → (s.head h).state = .press → s.leads h = true →
    s.plan h = .built p → smp = sampleOf s h f rest own companion →
    let taken := p.take s.setup.settleLimit h smp
    let reached := seatReached o (s.sense h).history smp ∨ o.pressLimit ≤ smp.depth
    (p.asked = true → race.requestArrives = true →
      Answers (.scanComplete h own companion race) s (haltedBy .pinHalt (s.unit h))) ∧
    (p.asked = false ∨ race.requestArrives = false → ¬tooStrong s h o smp →
      (reached → Answers (.scanComplete h own companion race) s (fun t =>
        pressEndedAt smp (fun k => (s.head k).state) s h o t ∧
        ∃ seated, (seated = true ↔ seatReached o (s.sense h).history smp) ∧
          let closed := (taken.markFaults t.channelFaulted).pressEnd smp.depth o.seatMode seated
          t.plan h = .built closed.1 ∧ closed.1.phase = .closed ∧ (t.head h).handed = some closed.2)) ∧
      (¬reached → taken.asked = true → race.requestArrives = true →
        Answers (.scanComplete h own companion race) s (haltedBy .pinHalt (s.unit h))) ∧
      (¬reached → taken.asked = false ∨ race.requestArrives = false →
        Answers (.scanComplete h own companion race) s (fun t =>
          t.plan h = .built (taken.markFaults t.channelFaulted) ∧
          (t.sense h).triggerArmed = (s.sense h).triggerArmed ∧
          ∀ k, t.head k = { s.head k with trace := (t.head k).trace })))

/-- DWELL_EXPIRE (R65, R66): the dwell timer at 0 begins the results writing with what the evaluator handed
over; the head stays in DWELL. A trace write in flight is waited for first (R161). -/
def Obligations.DwellExpiryBeginsTheResults : Prop :=
  ∀ (s : State) (h : HeadId) (o : Order) (r : HandOver), (s.head h).state = .dwell →
    (s.head h).dwell = some 0 → (s.head h).current = some o → (s.head h).handed = some r →
    Answers (.dwellExpire h) s (fun t =>
      (t.head h).state = .dwell ∧ (t.head h).outcomeFixed = true ∧ (t.head h).dwell = none ∧
      (∃ c, (t.head h).closing = some c ∧ c.order = o ∧ c.result = r ∧ c.stroke = true ∧
        ((s.head h).trace.inFlight ≠ 0 → c.stage = .traceFlight) ∧
        ((s.head h).trace.inFlight = 0 → ∀ e more, r.entries = e :: more → c.stage = .entry 0 ∧
          writes (.outcomeWrite h) (o.resultArea + 16 * e.index) e.bytes t)) ∧
      othersSame [h] s t ∧ t.claims = s.claims)

/-- A halt that meets a plan already CLOSED changes nothing of the plan; a fixed outcome stands; otherwise
ABORTED with the halt's reason is written, with the entries and counts formed at press end (R43). -/
def Obligations.HaltAfterPressEndKeepsVerdicts : Prop :=
  ∀ (s : State) (x : HeadId) (why : Reason) (p : Plan) (o : Order) (r : HandOver),
    s.plan x = .built p → p.phase = .closed → (s.head x).current = some o →
    (s.head x).handed = some r →
    (haltUnit why x s).plan x = .built p ∧
    ((s.head x).outcomeFixed = true → (haltUnit why x s).plan x = s.plan x ∧
      ((haltUnit why x s).head x).closing = (s.head x).closing) ∧
    ((s.head x).outcomeFixed = false → (s.head x).writeFailed = false →
      ∃ c, ((haltUnit why x s).head x).closing = some c ∧ c.order = o ∧
        c.result.outcome = .aborted ∧ c.result.reason = why ∧ c.result.entries = r.entries ∧
        c.result.failed = r.failed ∧ c.result.notChecked = r.notChecked ∧
        c.result.unjudged = r.unjudged)

/-! ## The pin evaluator (chapter 2) -/

/-- A present sample in an open window: its share is the channel force less the baseline, divided by the group
size, rounded toward zero; the running maximum share is raised to it, the final share is it, and every member's
bands and buckle are checked with it (R29). A missing value leaves maximum, final share and members. Both
examples given for the rounding. Beside it: what opens and closes a window and the baseline (R25 to R27), what a
band and the buckle check record (R30, R32), the carry check of an opening group (R33), the verdict of a closing
window in its order (R37, R38), and the outcome at press end in its order (R40, R41). A plan that takes a sample
(R21, R25 to R31): every channel by its own value, its last two present forces kept, PIN_HALT asked for from the
first share outside a HALT band on. The marks of FAULTED channels: every group whose window has not closed, of a
plan not CLOSED (R35). The history of 16 samples, and what of it is replayed: the samples from the one at Dc on
(R24, R94). That a value older than a fault asks in a marked window too is the model's choice (log 39). -/
def Obligations.ShareOfASample : Prop :=
  (∀ (envs : List Envelope) (dc depth force : Int) (g : Group), g.window = .opened →
    let share := (force - g.baseline).tdiv g.members.length
    let t := g.observe envs dc depth (some force)
    let u := g.observe envs dc depth none
    t.finalShare = some share ∧
    (g.maxShare = none → t.maxShare = some share) ∧
    (∀ m, g.maxShare = some m → t.maxShare = some (max m share)) ∧
    (∀ m, t.maxShare = some m →
      t.members = g.members.map (Member.observe envs (depth - (dc + g.engage)) share m)) ∧
    t.window = .opened ∧ t.baseline = g.baseline ∧ t.present = g.present + 1 ∧ t.lastDepth = some depth ∧
    u.present = g.present ∧ u.lastDepth = some depth ∧
    u.finalShare = g.finalShare ∧ u.maxShare = g.maxShare ∧ u.members = g.members) ∧
  ((351 - 100 : Int).tdiv 2 = 125 ∧ (95 - 100 : Int).tdiv 2 = -2) ∧
  (∀ (envs : List Envelope) (settle : Nat) (dc depth : Int) (lastTwo : List Int) (before : Option Group)
    (gs : List Group) (i : Nat) (g : Group), gs[i]? = some g →
    ∃ t, (advanceGroups envs settle dc depth lastTwo before gs)[i]? = some t ∧
      (g.window = .closed → t = g) ∧
      (g.window = .unopened → depth < dc + g.engage → t = g) ∧
      (g.window = .unopened → dc + g.engage ≤ depth → t.window ≠ .unopened ∧
        t.baseline = lastTwo.headD 0) ∧
      (g.window = .opened → t.baseline = g.baseline) ∧
      (g.window = .opened ∨ g.window = .unopened ∧ dc + g.engage ≤ depth →
        (t.window = .closed ↔ ∃ n, gs[i + 1]? = some n ∧ dc + n.engage ≤ depth))) ∧
  (∀ (envs : List Envelope) (settle : Nat) (dc depth : Int) (lastTwo : List Int) (gs : List Group) (i : Nat)
    (g : Group), gs[i]? = some g →
    ∃ t, (advanceGroups envs settle dc depth lastTwo none gs)[i]? = some t ∧
      (g.window ≠ .unopened → t.carryUnsettled = g.carryUnsettled) ∧
      (g.window = .unopened → dc + g.engage ≤ depth →
        (t.carryUnsettled = true ↔ 0 < settle ∧ 0 < i ∧
          ∃ before a b more, gs[i - 1]? = some before ∧ before.window = .opened ∧ 2 ≤ before.present ∧
            lastTwo = a :: b :: more ∧ settle < (a - b).natAbs))) ∧
  (∀ (settle : Nat) (x : HeadId) (smp : Sample) (p : Plan),
    let t := p.take settle x smp
    let moved := fun c : PlanChannel =>
      advanceGroups p.envelopes settle p.contactDepth smp.depth c.lastTwo none c.groups
    t = { p with asked := t.asked, channels := t.channels } ∧
    (t.asked = true ↔ p.asked = true ∨ ∃ c ∈ p.channels, ∃ force, valueIn smp x c = some force ∧
      ∃ g ∈ moved c, violatesHaltBand p.envelopes p.contactDepth smp.depth force g) ∧
    t.channels = p.channels.map (fun c =>
      { c with
        groups := (moved c).map (Group.observe p.envelopes p.contactDepth smp.depth (valueIn smp x c))
        lastTwo := match valueIn smp x c with
          | none => c.lastTwo
          | some force => force :: c.lastTwo.take 1 })) ∧
  (∀ (faulted : HeadId → Nat → Bool) (p : Plan),
    (p.phase = .closed → p.markFaults faulted = p) ∧
    (p.phase ≠ .closed → p.markFaults faulted = { p with
      channels := p.channels.map (fun c => { c with
        groups := c.groups.map (fun g => { g with
          channelFault := g.channelFault || faulted c.head c.tine && decide (g.window ≠ .closed) }) }) })) ∧
  (∀ (dc : Int) (older newer : List Sample), (∀ smp ∈ older, smp.depth < dc) →
    (∀ smp ∈ newer, dc ≤ smp.depth) → replayOf dc (older ++ newer) = newer) ∧
  (∀ (kept : List Sample) (smp : Sample), kept.length ≤ 16 →
    addHistory kept smp = if kept.length = 16 then kept.tail ++ [smp] else kept ++ [smp]) ∧
  (∀ (envs : List Envelope) (r share mx : Int) (m : Member),
    let t := m.observe envs r share mx
    (m.judgedOn envs = none → t = m) ∧
    ∀ e, m.judgedOn envs = some e →
      (t.low = true ↔ m.low = true ∨
        ∃ b ∈ e.bands, (b.bandFrom : Int) ≤ r ∧ r < b.bandTo ∧ share < b.minShare) ∧
      (t.high = true ↔ m.high = true ∨
        ∃ b ∈ e.bands, (b.bandFrom : Int) ≤ r ∧ r < b.bandTo ∧ b.maxShare < share) ∧
      (t.buckle = true ↔ m.buckle = true ∨ 0 < e.buckleDrop ∧ share < mx - e.buckleDrop) ∧
      (∀ first, m.firstBand = some first → t.firstBand = some first) ∧
      (∀ (i : Nat) (b : Band) (n : Nat), e.bands[i]? = some b → m.counts[i]? = some n →
        t.counts[i]? = some (if (b.bandFrom : Int) ≤ r ∧ r < b.bandTo then n + 1 else n))) ∧
  (∀ (envs : List Envelope) (g : Group) (dc : Int) (how : WindowEnd) (m : Member),
    (m.judgedOn envs = none → m.verdictAt envs g dc how = .unjudged) ∧
    ∀ e, m.judgedOn envs = some e → m.verdictAt envs g dc how =
      if g.channelFault = true ∨ how ≠ .closes then .notChecked
      else if g.maxShare = none then .noData
      else if g.maxShare.getD 0 < e.engageMin then .noEngage
      else if m.buckle then .buckle
      else if m.high then .high
      else if m.low then .low
      else if missedBand (g.windowLength dc) e.bands m.counts then .noData
      else .pass) ∧
  (∀ (p : Plan) (depth : Int) (mode : SeatMode) (seated : Bool),
    let r := (p.pressEnd depth mode seated).2
    (r.outcome, r.reason) =
      if mode ≠ .depth ∧ seated = false then (.fail, .noSeat)
      else if depth - p.contactDepth < p.seatMin ∨ p.seatMax < depth - p.contactDepth then
        (.fail, .seatRange)
      else if 0 < r.failed + r.notChecked then (.fail, .pin)
      else (.pass, .none))

/-! ## Operator station (chapter 7) -/

/-- GUARD_OPEN (R136): SAFE; every head in a motion state halts with GUARD, every other head and the device
keep their state. -/
def Obligations.GuardOpeningHaltsMovingHeads : Prop :=
  ∀ s : State, GangsAligned s → s.guardOpen = false →
    Answers .guardOpen s (fun t =>
      t.guardOpen = true ∧ flagged .safe t ∧ t.control.device = s.control.device ∧
      (∀ h, (s.head h).state.inMotion = true → haltedBy .guard [h] t) ∧
      (∀ h, (s.head h).state.inMotion = false → t.head h = s.head h) ∧
      t.claims = s.claims ∧ sameTools s t ∧ t.reader = s.reader)

/-- GUARD_CLOSE and POS_READY_RISE (R60, R136): a head whose AUTO conditions then hold together reads its
order's withdraw field; no head changes its state. START_PRESS, and PAIR_WINDOW_EXPIRE of a window past 500
ms (R131 to R134): the pair moves as the table gives; a pair that completes with GUARD closed and no
selected MASK active starts every head that waits for the operator with POS_READY; any other press changes
no head. A line that keeps its level keeps its samples, for the lines are filtered apart (R128). That the MASK
levels are an operand of START_PRESS is the model's choice (log 34). -/
def Obligations.AutoAndOperatorStarts : Prop :=
  (∀ s : State, s.estopActive = false →
    (s.guardOpen = true →
      Answers .guardClose s (fun t =>
        t.guardOpen = false ∧ flagged .safe t ∧ (∀ k, (t.head k).state = (s.head k).state) ∧
        (∀ x o, readyToStart .auto s x o →
          (t.head x).startRead = some false ∧ reads (.startRead x) (withdrawOffset o.record) 1 t) ∧
        sameTools s t ∧ sameBoard s t ∧ t.reader = s.reader)) ∧
    (∀ h, s.posReady h = false →
      Answers (.posReadyRise h) s (fun t =>
        t.posReady h = true ∧ (∀ k, (t.head k).state = (s.head k).state) ∧
        (∀ o, s.guardOpen = false → readyToStart .auto (setPosReady h true s) (s.lead h) o →
          (t.head (s.lead h)).startRead = some false ∧
          reads (.startRead (s.lead h)) (withdrawOffset o.record) 1 t) ∧
        sameTools s t ∧ sameBoard s t ∧ t.reader = s.reader))) ∧
  (∀ s : State,
    (∀ (a b : Bool) (mask : BitVec 4),
      ((s.inputs.startA.level = true → a = true) ∧ (s.inputs.startB.level = true → b = true)) →
      (a ≠ s.inputs.startA.level ∨ b ≠ s.inputs.startB.level) →
      Answers (.startPress a b mask) s (fun t =>
        t.inputs.startA.level = a ∧ t.inputs.startB.level = b ∧
        (a = s.inputs.startA.level → t.inputs.startA = s.inputs.startA) ∧
        (b = s.inputs.startB.level → t.inputs.startB = s.inputs.startB) ∧
        (∀ n : HeadId, mask.getLsbD n.toNat = (s.inputs.masks.get n).level →
          t.inputs.masks.get n = s.inputs.masks.get n) ∧
        t.inputs.pair = pairPressed (b && !s.inputs.startB.level)
          (a && !s.inputs.startA.level && b && !s.inputs.startB.level) s.inputs.pair ∧
        (∀ k, (t.head k).state = (s.head k).state) ∧
        (if pairCompleted (a && !s.inputs.startA.level && b && !s.inputs.startB.level)
              s.inputs.pair = true ∧ s.guardOpen = false ∧ mask &&& s.setup.startMask = 0 then
          ∀ x o, s.estopActive = false → readyToStart .operator s x o →
            (t.head x).startRead = some true ∧ reads (.startRead x) (withdrawOffset o.record) 1 t
        else t.heads = s.heads) ∧
        sameTools s t ∧ sameBoard s t ∧ t.reader = s.reader ∧ t.control = s.control)) ∧
    (∀ bFirst window, s.inputs.pair = .oneDown bFirst window → 500 < window →
      Answers .pairWindowExpire s (fun t =>
        t.inputs.pair = .spent ∧ t.control = s.control ∧ sameHeads s t ∧ sameTools s t ∧
        sameBoard s t ∧ t.reader = s.reader ∧ sameBus s t)))

/-- START_RELEASE (R131, R135): the pair moves as the table gives; a head in APPROACH or SEEK that was started
by the pair halts with START_RELEASED, one that reads its withdraw field for an operator start notes the
release, and every other head that leads its unit is unchanged. -/
def Obligations.ReleaseHaltsHeadsStartedByPair : Prop :=
  ∀ (s : State) (a b : Bool), GangsAligned s →
    (s.inputs.startA.level = true ∧ a = false ∨ s.inputs.startB.level = true ∧ b = false) →
    Answers (.startRelease a b) s (fun t =>
      t.inputs.startA.level = a ∧ t.inputs.startB.level = b ∧
      (a = s.inputs.startA.level → t.inputs.startA = s.inputs.startA) ∧
      (b = s.inputs.startB.level → t.inputs.startB = s.inputs.startB) ∧
      t.inputs.pair = pairReleased a b s.inputs.pair ∧
      (∀ x, s.leads x = true →
        if ((s.head x).state = .approach ∨ (s.head x).state = .seek) ∧ (s.head x).startedByPair
        then haltedBy .startReleased (s.unit x) t
        else if (s.head x).startRead = some true then
          t.head x = { s.head x with releaseSeen := true }
        else t.head x = s.head x) ∧
      t.claims = s.claims ∧ sameTools s t ∧ t.reader = s.reader)

/-- RAM_TOP_RISE (R67, R73, R74, R78): the depth becomes 0. A single head in RETRACT or RECOVER comes to rest on
its brake, releases a claim it holds and counts a stroke that reached contact: on a READY tool the count rises,
up to 4 294 967 295, WORN is set, with TOOL, when the wear limit is not 0 and the count at or above it, and a
write of the wear page is queued, or follows one already granted, or is served by one not yet granted; any other
tool is unchanged (R109). A gang's head whose partner is not at its top holds on its brake with its guard
disarmed; the second head of a gang at its top ends the rise of both, each in its own state of rest, with one
release and a stroke counted on both tools. Outside RETRACT and RECOVER no sequencer changes. HEAD_BUSY then
follows the head state (R49). That an enabled head rests in OFFLINE and not in IDLE while an abort is under way,
the device still shown RUNNING or STOPPING, is the model's choice (log 11). -/
def Obligations.TopReferenceEndsTheRise : Prop :=
  ∀ (s : State) (h : HeadId), s.ramTop h = false →
    Answers (.ramTopRise h) s (fun t =>
      t.ramTop h = true ∧ (t.sense h).depth = 0 ∧ t.claims = s.claims ∧ t.reader = s.reader ∧
      t.headBusy h = ((t.head h).state.inMotion || (t.head h).state = .halted) ∧
      ((s.head (s.lead h)).state ≠ .retract → (s.head (s.lead h)).state ≠ .recover →
        t.heads = s.heads ∧ sameTools s t) ∧
      ((s.head h).gang = false → ((s.head h).state = .retract ∨ (s.head h).state = .recover) →
        (t.head h).state = s.restState h ∧ (t.head h).setpoint = 0 ∧ (t.head h).brake = true ∧
        (t.head h).current = none ∧ (t.head h).contactReached = false ∧ t.plan h = .empty ∧
        ((s.head h).claim = .held →
          t.claimMsgs.get h = s.claimMsgs.get h ++ [.release] ∧ (t.head h).claim = .none) ∧
        (t.tool h = if (s.head h).contactReached then strokeCounted (s.tool h) else s.tool h) ∧
        ((s.tool h).worn = false → (t.tool h).worn = true → flagged .tool t) ∧
        ((s.head h).contactReached = true →
          (t.sense h).strokesSinceTare = min 255 ((s.sense h).strokesSinceTare + 1))) ∧
      ((s.head h).gang = true → GangsAligned s →
        ((s.head h).state = .retract ∨ (s.head h).state = .recover) →
        (∀ k, k ≠ h → k ∈ s.unit h → (s.head k).atTop = false ∧ s.ramTop k = false) →
        (t.head h).state = (s.head h).state ∧ (t.head h).setpoint = 0 ∧ (t.head h).brake = true ∧
        (t.head h).guardArmed = false ∧ (t.head h).atTop = true) ∧
      ((s.head h).gang = true → GangsAligned s →
        ((s.head h).state = .retract ∨ (s.head h).state = .recover) →
        (∀ k ∈ s.unit h, k ≠ h → (s.head k).atTop = true ∨ s.ramTop k = true) →
        (∀ k ∈ s.unit h, (t.head k).state = s.restState k ∧ (t.head k).setpoint = 0 ∧
          (t.head k).brake = true ∧ (t.head k).guardArmed = false ∧ (t.head k).current = none ∧
          (t.head k).gang = false ∧ (t.head k).contactReached = false ∧ t.plan k = .empty ∧
          t.tool k = (if (s.head h.primary).contactReached then strokeCounted (s.tool k) else s.tool k) ∧
          ((s.tool k).worn = false → (t.tool k).worn = true → flagged .tool t) ∧
          ((s.head h.primary).contactReached = true →
            (t.sense k).strokesSinceTare = min 255 ((s.sense k).strokesSinceTare + 1))) ∧
        ((s.head h.primary).claim = .held →
          t.claimMsgs = s.claimMsgs.set h.primary (s.claimMsgs.get h.primary ++ [.release]) ∧
          (t.head h.primary).claim = .none)))

/-- RAM_TOP_FALL (R49, R78, R113, R130): HEAD_BUSY is asserted whatever the head state; without a tare in
progress at the head or, in a gang, at its partner no head changes; with one, the fall on either head of a gang
acts on both: every tare of the unit is abandoned and left invalid, and the order before its stroke ends REFUSED
with RAM_NOT_TOP. -/
def Obligations.RamTopFallAbandonsATare : Prop :=
  ∀ (s : State) (h : HeadId), s.ramTop h = true →
    Answers (.ramTopFall h) s (fun t =>
      t.ramTop h = false ∧ t.headBusy h = true ∧ (t.sense h).depth = (s.sense h).depth ∧ t.claims = s.claims ∧
      sameTools s t ∧ t.reader = s.reader ∧
      ((∀ k ∈ s.unit h, (s.sense k).tare = none) → sameHeads s t) ∧
      (∀ o, (∃ k ∈ s.unit h, (s.sense k).tare ≠ none) → (s.head (s.lead h)).current = some o →
        (s.head (s.lead h)).outcomeFixed = false → (s.head (s.lead h)).writeFailed = false →
        (∀ k ∈ s.unit (s.lead h), (t.sense k).tare = none ∧
          (t.sense k).tareValid = ((s.sense k).tareValid && (s.sense k).tare.isNone)) ∧
        closingBare (s.lead h) o .refused .ramNotTop t))

/-! ## Tooling (chapter 5) -/

/-- TOOL_ATTACH (R96): IDENTIFY with its record cleared and toggle 0, the base block asked for; the head's
channels OK with counters and offsets 0, its tare invalid; TOOL. -/
def Obligations.AttachBeginsIdentification : Prop :=
  ∀ (s : State) (h : HeadId), s.toolPresent h = false →
    Answers (.toolAttach h) s (fun t =>
      t.toolPresent h = true ∧ (t.tool h).state = .identify ∧ (t.tool h).toolType = 0 ∧
      (t.tool h).tines = 0 ∧ (t.tool h).worn = false ∧ (t.tool h).toggle = false ∧
      (t.tool h).request = .identify .base ∧ (t.tool h).retries = 0 ∧
      (∀ ch ∈ (t.sense h).channels, ch.health = .ok ∧ ch.glitches = 0 ∧ ch.offset = 0) ∧
      (t.sense h).tareValid = false ∧ (t.sense h).strokesSinceTare = 0 ∧
      ((s.tool h).state ≠ .identify → flagged .tool t) ∧
      (∀ k, k ≠ h → t.tool k = s.tool k) ∧ t.claims = s.claims ∧ t.toolBus = s.toolBus)

/-- TOOL_REMOVAL (R68, R97, R105): ABSENT with its record cleared, no request, the toggle kept, the tare
invalid, TOOL; a transaction of the head is cut and the line must be idle for 2 ms; a unit in motion halts
with TOOL_LOST, an order in PREPARE, ZONE_WAIT or START_WAIT ends REFUSED with TOOL_ABSENT (R58), a head in IDLE,
OFFLINE or HALTED is unchanged. That the removal of a tool already ABSENT
raises TOOL too is the model's reading (log 35). -/
def Obligations.RemovalMakesTheToolAbsent : Prop :=
  ∀ (s : State) (h : HeadId), s.toolPresent h = true →
    Answers (.toolRemoval h) s (fun t =>
      t.toolPresent h = false ∧ (t.tool h).state = .absent ∧ (t.tool h).toolType = 0 ∧
      (t.tool h).tines = 0 ∧ (t.tool h).worn = false ∧ (t.tool h).request = .none ∧
      (t.tool h).toggle = (s.tool h).toggle ∧ (t.sense h).tareValid = false ∧
      (t.sense h).tare = none ∧ flagged .tool t ∧
      (if s.onToolBus h = true then t.toolBus.transaction = none ∧ t.toolBus.idleNeeded = 2000 ∧
          t.toolBus.idle = 0
       else t.toolBus = s.toolBus) ∧
      ((s.head (s.lead h)).state.inMotion = true → haltedBy .toolLost (s.unit (s.lead h)) t) ∧
      ((s.head (s.lead h)).state.inMotion = false → (s.head (s.lead h)).state.beforeStroke = false →
        t.heads = s.heads) ∧
      (∀ o, (s.head (s.lead h)).state.beforeStroke = true → (s.head (s.lead h)).current = some o →
        (s.head (s.lead h)).outcomeFixed = false → (s.head (s.lead h)).writeFailed = false →
        closingBare (s.lead h) o .refused .toolAbsent t) ∧
      (∀ k, k ≠ h → t.tool k = s.tool k) ∧ t.claims = s.claims ∧ t.reader = s.reader)

/-- TOOL_BUS_GRANT (R104): a free line, idle as long as it must be, goes to the first head after the last
granted whose request is pending, which becomes the last granted head; one transaction stands on the line.
That the line's idle time comes from the periods of the filter clock and an operand is the model's choice (log
29). -/
def Obligations.ToolBusServesTheNextHead : Prop :=
  ∀ (s : State) (idle : Nat) (h : HeadId), s.toolBus.transaction = none →
    s.toolBus.idleNeeded ≤ s.toolBus.idle + idle → (s.tool h).request ≠ .none →
    (∀ k, k ∈ [s.toolBus.lastGranted.next, s.toolBus.lastGranted.next.next,
        s.toolBus.lastGranted.next.next.next, s.toolBus.lastGranted].takeWhile (fun k => k ≠ h) →
      (s.tool k).request = .none) →
    Answers (.toolBusGrant idle) s (fun t =>
      t.toolBus.lastGranted = h ∧
      (∃ w, t.toolBus.transaction = some w ∧ w.head = h ∧ w.toggle = (s.tool h).toggle ∧
        w.discard = false ∧ (w.write = true ↔ (s.tool h).request = .wearWrite)) ∧
      sameHeads s t ∧ sameBoard s t ∧ t.reader = s.reader ∧ t.control = s.control ∧
      (∀ k, (t.tool k).state = (s.tool k).state ∧ (t.tool k).request = (s.tool k).request))

/-- TOOL_REPLY of a transaction that succeeds, its reply meeting none of the failures (R103, R106): the toggle
flips, the retry count is 0, the line must be idle for 0.1 ms before the next request, and the tool is what the
block, with its MORE and its sixteen bytes, or the wear write makes of it; a change of tool state raises TOOL (R99).
A calibration block (R108) passes when every tine it holds below T has gain and limit other than 0 and MORE is 1:
they join the record and the next block is asked for; else the tool enters FAULT. The wear block passes with MORE 0:
READY with its stroke count and wear limit, WORN when the limit is not 0 and the count at or above it; with MORE 1
the tool enters FAULT. -/
def Obligations.SuccessfulReplyFlipsTheToggle : Prop :=
  (∀ (s : State) (hd : Frame) (rest : List Frame) (w : Transaction), s.toolBus.transaction = some w →
    w.discard = false → goodReply w (hd :: rest) →
    Answers (.toolReply (hd :: rest)) s (fun t =>
      t.toolBus.transaction = none ∧ t.toolBus.idleNeeded = 100 ∧ t.toolBus.idle = 0 ∧
      (t.tool w.head).toggle = !(s.tool w.head).toggle ∧ (t.tool w.head).retries = 0 ∧
      (∀ b, (s.tool w.head).request = .identify b →
        t.tool w.head = Tool.identified b
          { more := hd.data.getLsbD 4, data := (rest.take 16).map (·.data) }
          { s.tool w.head with toggle := !(s.tool w.head).toggle, retries := 0 }) ∧
      ((s.tool w.head).request = .wearWrite →
        (t.tool w.head).state = (s.tool w.head).state ∧
        (t.tool w.head).strokes = (s.tool w.head).strokes ∧
        (t.tool w.head).request = (if (s.tool w.head).identifyAfter then .identify .base
          else if (s.tool w.head).wearAgain then .wearWrite else .none)) ∧
      ((t.tool w.head).state ≠ (s.tool w.head).state → flagged .tool t) ∧
      (∀ k, k ≠ w.head → t.tool k = s.tool k) ∧ t.claims = s.claims ∧ t.reader = s.reader)) ∧
  (∀ (t : Tool) (r : BlockReply) (i : Nat),
    let u := t.identified (.cal i) r
    let tines := List.range (min 4 (t.tines - 4 * i))
    let good := (∀ m ∈ tines, u16At r.data (4 * m) ≠ 0 ∧ u16At r.data (4 * m + 2) ≠ 0) ∧ r.more = true
    (good →
      u.gains = t.gains ++ tines.map (fun m => u16At r.data (4 * m)) ∧
      u.limits = t.limits ++ tines.map (fun m => u16At r.data (4 * m + 2)) ∧
      u.request = .identify (if 4 * (i + 1) < t.tines then .cal (i + 1) else .wear) ∧
      u.state = t.state ∧ u.toolType = t.toolType ∧ u.tines = t.tines ∧ u.toggle = t.toggle) ∧
    (¬good → u.state = .fault ∧ u.request = .none ∧ u.worn = false ∧ u.gains = t.gains ∧
      u.limits = t.limits)) ∧
  (∀ (t : Tool) (r : BlockReply),
    let u := t.identified .wear r
    (r.more = true → u.state = .fault ∧ u.request = .none ∧ u.worn = false) ∧
    (r.more = false →
      u.state = .ready ∧ u.request = .none ∧ u.retries = 0 ∧
      u.strokes = u32At r.data 0 ∧ u.wearLimit = u32At r.data 4 ∧
      (u.worn = true ↔ u32At r.data 4 ≠ 0 ∧ u32At r.data 4 ≤ u32At r.data 0) ∧
      u.gains = t.gains ∧ u.limits = t.limits ∧ u.toolType = t.toolType ∧ u.tines = t.tines))

/-- A transaction that fails, for want of a reply or by one that is short or long, carries a marker, has a check
sum other than 0, echoes another page, half or toggle, or lacks ACK or a WRITE's COMPLY (R103): the toggle
stays, the line must be idle for 2 ms, and a retry is counted, or at the fourth failure the request is dropped
and the tool enters FAULT with TOOL; the wear write that a device start keeps is followed by identification
instead (R98). A frame that comes after it is ignored, and the line's 2 ms of idle time begin again. A
transaction whose reply a device start has had discarded ends, however it ends, in identification asked for
afresh (R98), with the toggle as it was (the model's reading, log 17). The line's idle time in the model is log
29. -/
def Obligations.FailedTransactions : Prop :=
  (∀ (s : State) (i : Instr) (w : Transaction), s.toolBus.transaction = some w → w.discard = false →
    (i = .toolReplyTimeout ∨ ∃ frames, i = .toolReply frames ∧ ¬goodReply w frames) →
    Answers i s (fun t =>
      t.toolBus.transaction = none ∧ t.toolBus.idleNeeded = 2000 ∧ t.toolBus.idle = 0 ∧
      (t.tool w.head).toggle = (s.tool w.head).toggle ∧
      (if (s.tool w.head).retries < 3 then
        (t.tool w.head).retries = (s.tool w.head).retries + 1 ∧
        (t.tool w.head).request = (s.tool w.head).request ∧
        (t.tool w.head).state = (s.tool w.head).state ∧ t.heads = s.heads
      else if (s.tool w.head).identifyAfter then
        (t.tool w.head).request = .identify .base ∧ (t.tool w.head).retries = 0 ∧
        (t.tool w.head).state = (s.tool w.head).state ∧ t.heads = s.heads
      else
        (t.tool w.head).request = .none ∧ (t.tool w.head).state = .fault ∧
        (t.tool w.head).worn = false ∧
        (t.tool w.head).toolType = (s.tool w.head).toolType ∧
        ((s.tool w.head).state ≠ .fault → flagged .tool t)) ∧
      t.claims = s.claims)) ∧
  (∀ (s : State) (frame : Frame), s.toolBus.transaction = none → s.toolBus.idleNeeded = 2000 →
    Answers (.frameAfterFailedTransaction frame) s (fun t =>
      t.toolBus = { s.toolBus with idle := 0 } ∧ t.control = s.control ∧ sameHeads s t ∧
      t.tools = s.tools ∧ sameBoard s t ∧ t.reader = s.reader ∧ t.inputs = s.inputs ∧ sameBus s t)) ∧
  (∀ (s : State) (i : Instr) (w : Transaction), s.toolBus.transaction = some w → w.discard = true →
    (i = .toolReplyTimeout ∨ ∃ frames, i = .toolReply frames) →
    Answers i s (fun t =>
      t.toolBus.transaction = none ∧ t.toolBus.idle = 0 ∧
      (t.tool w.head).request = .identify .base ∧ (t.tool w.head).retries = 0 ∧
      (t.tool w.head).toggle = (s.tool w.head).toggle ∧
      (t.tool w.head).state = (s.tool w.head).state ∧
      (∀ k, k ≠ w.head → t.tool k = s.tool k) ∧ sameHeads s t ∧ t.control = s.control ∧
      t.claims = s.claims ∧ t.reader = s.reader))

/-- The base block (R107): with a type other than 0, 1 to 32 tines, the page count that goes with them and at
most 8, and MORE, the record takes type, tines and page count and the first calibration block is asked for;
with any of these failing the tool enters FAULT. -/
def Obligations.BaseBlockIsChecked : Prop :=
  ∀ (t : Tool) (r : BlockReply) (kind tines pages : Nat), kind = u16At r.data 0 →
    tines = byteAt r.data 2 → pages = byteAt r.data 3 →
    ((kind ≠ 0 ∧ 1 ≤ tines ∧ tines ≤ 32 ∧ pages = (tines + 7) / 8 + 2 ∧ pages ≤ 8 ∧ r.more = true) →
      (t.identified .base r).toolType.toNat = kind ∧ (t.identified .base r).tines = tines ∧
      (t.identified .base r).pages = pages ∧
      (t.identified .base r).request = .identify (.cal 0) ∧
      (t.identified .base r).state = t.state) ∧
    (¬(kind ≠ 0 ∧ 1 ≤ tines ∧ tines ≤ 32 ∧ pages = (tines + 7) / 8 + 2 ∧ pages ≤ 8 ∧
        r.more = true) →
      (t.identified .base r).state = .fault)

/-! ## Taking, PREPARE and the start (chapters 1 and 3) -/

/-- TAKE_ORDER (R51, R52): an IDLE head of a RUNNING device takes the order at the front of its queue, both
heads of a gang together: PREPARE, marks cleared, the status ACTIVE being written. -/
def Obligations.TakingBeginsPrepare : Prop :=
  ∀ (s : State) (h : HeadId) (o : Order), s.control.device = .running → s.control.aborting = false →
    (s.head h).state = .idle → s.reader.front h = some o → o.head = h →
    (o.ganged = true → h = h.primary ∧ (s.head h.companion).state = .idle ∧
      ∃ p, s.reader.front h.companion = some p ∧ p.age = o.age) →
    Answers (.takeOrder h) s (fun t =>
      (∀ k ∈ o.heads, (t.head k).state = .prepare ∧ (t.head k).current = some o ∧
        (t.head k).outcomeFixed = false ∧ (t.head k).startedByPair = false ∧
        (t.head k).gang = o.ganged ∧ (t.head k).setpoint = 0 ∧ (t.head k).brake = true) ∧
      (t.head h).prep = .active ∧ writes (.activeWrite h) (statusOffset o.record) [statusActive] t ∧
      (∀ k, k ∉ o.heads → t.head k = s.head k) ∧
      t.reader.queues = s.reader.queues ∧ t.claims = s.claims ∧ sameTools s t)

/-- ACTIVE_WRITE_DONE (R52): step 2 reads the withdraw field. WITHDRAW_READ_DONE (R53): step 2's read that
finds a value other than 0 ends the order WITHDRAWN, one that meets a bus error ends it REFUSED with MEMORY;
a NUDGE's read that finds 0 or meets a bus error has no effect on the head, and one that finds withdraw set ends
the order WITHDRAWN. Step 2's read that finds 0 leads on (R54, R55, R111): a tool in IDENTIFY makes the head wait in
step 3; else the first failing tool check, then RAM_TOP, refuses the order; else the tares due begin, and with none
due the plan build reads the pin map's slot. -/
def Obligations.WithdrawReadsInPrepare : Prop :=
  ∀ (s : State) (h : HeadId) (o : Order), (s.head h).current = some o →
    (inFlightFor (.activeWrite h) s →
      Answers (.activeWriteDone h) s (fun t =>
        (t.head h).prep = .withdraw ∧ (t.head h).state = (s.head h).state ∧
        reads (.withdrawRead h) (withdrawOffset o.record) 1 t ∧ othersSame [h] s t)) ∧
    (inFlightFor (.withdrawRead h) s → (s.head h).outcomeFixed = false →
      (s.head h).writeFailed = false →
      (∀ v, v ≠ 0 → Answers (.withdrawReadDone h (some v)) s
        (closingBare h o .withdrawn .none)) ∧
      Answers (.withdrawReadDone h none) s (closingBare h o .refused .memory)) ∧
    (inFlightFor (.nudgeRead h) s →
      Answers (.withdrawReadDone h (some 0)) s (sameBlocks s) ∧
      Answers (.withdrawReadDone h none) s (sameBlocks s) ∧
      ((s.head h).state.beforeStroke = true → (s.head h).outcomeFixed = false →
        (s.head h).writeFailed = false → ∀ v, v ≠ 0 →
        Answers (.withdrawReadDone h (some v)) s (closingBare h o .withdrawn .none))) ∧
    (inFlightFor (.withdrawRead h) s → (∃ k ∈ s.unit h, (s.tool k).state = .identify) →
      Answers (.withdrawReadDone h (some 0)) s (fun t =>
        t.head h = { s.head h with prep := .tools } ∧ othersSame [h] s t ∧ t.plan h = s.plan h ∧
        t.sense h = s.sense h)) ∧
    (inFlightFor (.withdrawRead h) s → (∀ k ∈ s.unit h, (s.tool k).state ≠ .identify) →
      (∀ why, (s.head h).outcomeFixed = false → (s.head h).writeFailed = false →
        (toolRefusal o ((s.unit h).map s.tool) = some why ∨
          toolRefusal o ((s.unit h).map s.tool) = none ∧ why = .ramNotTop ∧
            ∃ k ∈ s.unit h, s.ramTop k = false) →
        Answers (.withdrawReadDone h (some 0)) s (closingBare h o .refused why)) ∧
      (toolRefusal o ((s.unit h).map s.tool) = none → (∀ k ∈ s.unit h, s.ramTop k = true) →
        ((∃ k ∈ s.unit h, dueForTare s k) →
          Answers (.withdrawReadDone h (some 0)) s (fun t =>
            (t.head h).prep = .tare ∧ t.plan h = s.plan h ∧
            ∀ k ∈ s.unit h, (dueForTare s k →
                (t.sense k).tare = some { sums := List.replicate (s.tool k).tines 0, taken := 0 }) ∧
              (¬dueForTare s k → t.sense k = s.sense k))) ∧
        ((∀ k ∈ s.unit h, ¬dueForTare s k) →
          Answers (.withdrawReadDone h (some 0)) s (fun t =>
            (t.head h).prep = .plan ∧ t.plan h = .loading Build.start ∧
            reads (.planRead h) (slotOffset s.setup o.mapId) 4 t ∧
            ∀ k ∈ s.unit h, t.sense k = s.sense k))))

/-- PLAN_READ_DONE (R15, R18, R56): each read is checked as it completes, and the next is asked for. A slot is
refused that is 0, not a multiple of 64 or without room for the header (R1), a pin map by its header's fields,
its room and the order's result capacity (R1, R2), its entries by their fields or a position named twice (R3),
an envelope by its header, its room or its bands (R1, R4). Each class used, in ascending order, has its envelope
chosen (R5, R7); one the plan does not hold is read through its slot, up to 16 copies, each once (R8). The pins
are placed, sorted and cut into groups (R12, R13), in the state a stroke begins from (R16). That one access
reads all pin entries, and one all bands, is the model's reading (log 24). At the head: a bus error ends the
build REFUSED with MEMORY; a failed check ends it REFUSED with the build's reason; a read that passes leads to
the next; a complete plan with a FAULTED mapped channel ends REFUSED with CHANNEL, and with none the head, or
both heads of a gang, enter ZONE_WAIT with the plan built. On that entry a tool in FAULT refuses the order with
TOOL_FAULT (R58); else the claim is asked for, with the order's zone widened by the zone margin and kept within
0 and 65 535, and the order's age (R59, R115, R116). -/
def Obligations.PlanReadsBuildThePlan : Prop :=
  (∀ (s : State) (h : HeadId) (o : Order) (b : Build), inFlightFor (.planRead h) s →
    (s.head h).state = .prepare → (s.head h).current = some o → s.plan h = .loading b →
    (s.head h).outcomeFixed = false → (s.head h).writeFailed = false →
    Answers (.planReadDone h none) s (fun t =>
      closingBare h o .refused .memory t ∧ t.plan h = .empty) ∧
    (∀ d why, b.advance s.setup o (s.tool h).tines (s.tool h.companion).tines d = .fail why →
      Answers (.planReadDone h (some d)) s (fun t =>
        closingBare h o .refused why t ∧ t.plan h = .empty)) ∧
    (∀ d b' off len,
      b.advance s.setup o (s.tool h).tines (s.tool h.companion).tines d = .read b' off len →
      Answers (.planReadDone h (some d)) s (fun t =>
        t.plan h = .loading b' ∧ reads (.planRead h) off len t ∧ t.heads = s.heads)) ∧
    (∀ d p, b.advance s.setup o (s.tool h).tines (s.tool h.companion).tines d = .complete p →
      Answers (.planReadDone h (some d)) s (fun t =>
        t.plan h = .built p ∧
        (s.mappedFault p = true → closingBare h o .refused .channel t) ∧
        (s.mappedFault p = false →
          (∀ k ∈ s.unit h, (t.head k).state = .zoneWait) ∧ t.claims = s.claims ∧
          ((∃ k ∈ s.unit h, (s.tool k).state = .fault) →
            closingBare h o .refused .toolFault t) ∧
          ((∀ k ∈ s.unit h, (s.tool k).state ≠ .fault) →
            (t.head h).claim = .requested ∧
            t.claimMsgs.get h = s.claimMsgs.get h ++ [.request
              (if o.zoneFrom < s.setup.zoneMargin then 0 else o.zoneFrom - s.setup.zoneMargin)
              (if 65535 < o.zoneTo + s.setup.zoneMargin then 65535
                else o.zoneTo + s.setup.zoneMargin) o.age]))))) ∧
  (∀ (c : Setup) (o : Order) (t0 t1 : Nat) (d : List Byte) (b : Build),
    let r := b.advance c o t0 t1 d
    (b.stage = .slot →
      (badSlot c.areaSize 32 (u32At d 0) → r = .fail .plan) ∧
      (¬badSlot c.areaSize 32 (u32At d 0) →
        r = .read { b with stage := .header (u32At d 0) } (u32At d 0) 32)) ∧
    (∀ off, b.stage = .header off →
      (¬goodMapHeader c.areaSize o off d → r = .fail .plan) ∧
      (goodMapHeader c.areaSize o off d → ∃ m : MapHeader,
        m.id = byteAt d 0 ∧ m.pinCount = u16At d 2 ∧ m.columns = byteAt d 4 ∧ m.rows = byteAt d 5 ∧
        m.seatMin = s32At d 8 ∧ m.seatMax = s32At d 12 ∧
        m.classDefault = (List.range 16).map (fun k => byteAt d (16 + k)) ∧
        r = .read { b with stage := .entries off, header := some m } (off + 32) (8 * m.pinCount))) ∧
    (∀ off m, b.stage = .entries off → b.header = some m →
      (¬goodEntries m d → r = .fail .plan) ∧
      (goodEntries m d → ∃ classes : List Nat, classes.Pairwise (· < ·) ∧
        (∀ k, k ∈ classes ↔ ∃ i, i < m.pinCount ∧ (entryAt d i).cls = k) ∧
        goesOnChoosing c o t0 t1 m
          { b with entries := (List.range m.pinCount).map (entryAt d), classes := classes } r)) ∧
    (∀ id, b.stage = .envSlot id →
      (badSlot c.areaSize 16 (u32At d 0) → r = .fail .plan) ∧
      (¬badSlot c.areaSize 16 (u32At d 0) →
        r = .read { b with stage := .envHeader id (u32At d 0) } (u32At d 0) 16)) ∧
    (∀ id off, b.stage = .envHeader id off →
      (¬goodEnvelopeHeader c.areaSize id off d → r = .fail .plan) ∧
      (goodEnvelopeHeader c.areaSize id off d →
        r = .read { b with stage := .envBands id off d } (off + 16) (16 * byteAt d 1))) ∧
    (∀ id off header m, b.stage = .envBands id off header → b.header = some m →
      (¬goodBands header d → r = .fail .plan) ∧
      (goodBands header d → goesOnChoosing c o t0 t1 m
        { b with envelopes := b.envelopes ++
          [{ id := byteAt header 0, engageMin := s32At header 4, buckleDrop := s32At header 8,
             bands := (List.range (byteAt header 1)).map (bandAt d) }] } r))) ∧
  ∀ (c : Setup) (o : Order) (t0 t1 : Nat) (m : MapHeader) (es : List PinEntry)
    (chosen : List (Nat × Option Nat)) (envs : List Envelope),
    planMade c o t0 t1 m es chosen envs (makePlan c o t0 t1 m es chosen envs)

/-- A pin of a single head's order is placed on the tine of its logical column, if that lies below T0. -/
def Obligations.SingleHeadPlacing : Prop :=
  ∀ (o : Order) (t0 t1 column : Nat), o.ganged = false →
    placeColumn o t0 t1 column = if column < t0 then some (o.head, column) else none

/-- START_WITHDRAW_READ_DONE (R60, R61): with GUARD open a read that finds 0 leaves the head waiting; with
GUARD closed, POS_READY on every head of the unit and no button released meanwhile, the unit enters APPROACH
at the approach speed downward with its brake released, guards armed and the step trigger armed one pitch
down; with POS_READY fallen during the read, though it rose again, or not asserted on every head, it halts at that
entry with POSITION_LOST, with a button released since the pair with START_RELEASED, with both with either (R60,
R68, R135, R136, log 10); a value other than 0 ends the order WITHDRAWN, a bus error REFUSED with MEMORY. -/
def Obligations.StartReadEntersApproach : Prop :=
  ∀ (s : State) (h : HeadId) (o : Order), inFlightFor (.startRead h) s →
    (s.head h).state = .startWait → (s.head h).current = some o → s.leads h = true →
    (s.guardOpen = true →
      Answers (.startWithdrawReadDone h (some 0)) s (fun t =>
        (t.head h).state = .startWait ∧ (t.head h).startRead = none ∧ (t.head h).posLost = false ∧
        (t.head h).releaseSeen = false ∧ t.claims = s.claims)) ∧
    (s.guardOpen = false → (s.unit h).all s.posReady = true → (s.head h).posLost = false →
      (s.head h).releaseSeen = false →
      Answers (.startWithdrawReadDone h (some 0)) s (fun t =>
        (∀ k ∈ s.unit h, (t.head k).state = .approach ∧ (t.head k).direction = .down ∧
          (t.head k).brake = false ∧ (t.head k).guardArmed = true ∧
          (t.head k).guardCount = s.setup.guardInterval.get k ∧
          (t.head k).setpoint = BitVec.ofNat 12
            (setpointFor o.approachSpeed (s.setup.fullScale.get h))) ∧
        (t.sense h).triggerArmed = true ∧
        (t.sense h).nextTrigger = (s.sense h).depth + o.samplePitch ∧
        (t.head h).startedByPair = (s.head h).startRead.getD false ∧ t.claims = s.claims)) ∧
    (s.guardOpen = false → ((s.unit h).all s.posReady = false ∨ (s.head h).posLost = true ∨
        (s.head h).startRead = some true ∧ (s.head h).releaseSeen = true) →
      Answers (.startWithdrawReadDone h (some 0)) s (fun t =>
        (((s.unit h).all s.posReady = false ∨ (s.head h).posLost = true) ∧
            haltedBy .positionLost (s.unit h) t ∨
          (s.head h).startRead = some true ∧ (s.head h).releaseSeen = true ∧
            haltedBy .startReleased (s.unit h) t) ∧
        t.claims = s.claims)) ∧
    ((s.head h).outcomeFixed = false → (s.head h).writeFailed = false →
      (∀ v, v ≠ 0 → Answers (.startWithdrawReadDone h (some v)) s
        (closingBare h o .withdrawn .none)) ∧
      Answers (.startWithdrawReadDone h none) s (closingBare h o .refused .memory))

/-! ## Board zones (chapter 6) -/

/-- CLAIM_REQUEST (R116): HELD with a grant sent when disjoint from every HELD entry, WAITING otherwise, no
other entry changed. CLAIM_WITHDRAW and CLAIM_RELEASE (R118, R119, R120): a WAITING entry is emptied without a
pass; a release, or a withdrawal of a HELD entry, empties it and makes a pass, in which HELD entries of the
others stay, and a WAITING entry is granted only as it stood. The pass goes from the oldest order on: an entry
still WAITING after it overlaps an entry that was HELD before, or one it has granted to an order not younger. -/
def Obligations.ClaimsAreAskedWithdrawnAndReleased : Prop :=
  (∀ (s : State) (h : HeadId) (low high age : Nat) (more : List ClaimMsg),
    s.claimMsgs.get h = .request low high age :: more →
    Answers (.claimRequest h) s (fun t =>
      t.claimMsgs.get h = more ∧ (∀ k, k ≠ h → t.claims.get k = s.claims.get k) ∧
      ((∀ k l u, s.claims.get k = .held l u → overlap low high l u = false) →
        t.claims.get h = .held low high ∧ t.grants.get h = some age) ∧
      (∀ k l u, s.claims.get k = .held l u → overlap low high l u = true →
        t.claims.get h = .waiting low high age ∧ t.grants = s.grants) ∧
      sameHeads s t ∧ sameTools s t ∧ t.reader = s.reader ∧ t.control = s.control)) ∧
  (∀ (s : State) (h : HeadId) (more : List ClaimMsg),
    (s.claimMsgs.get h = .withdraw :: more →
      Answers (.claimWithdraw h) s (fun t =>
        t.claimMsgs.get h = more ∧ t.claims.get h = .empty ∧
        ((∀ l u, s.claims.get h ≠ .held l u) → ∀ k, k ≠ h → t.claims.get k = s.claims.get k) ∧
        (∀ k l u, k ≠ h → s.claims.get k = .held l u → t.claims.get k = .held l u) ∧
        ((∃ l u, s.claims.get h = .held l u) → passMade h s t) ∧
        sameHeads s t ∧ sameTools s t ∧ t.reader = s.reader)) ∧
    (s.claimMsgs.get h = .release :: more →
      Answers (.claimRelease h) s (fun t =>
        t.claimMsgs.get h = more ∧ t.claims.get h = .empty ∧
        (∀ k l u, k ≠ h → s.claims.get k = .held l u → t.claims.get k = .held l u) ∧
        (∀ k l u a, k ≠ h → s.claims.get k = .waiting l u a →
          t.claims.get k = .waiting l u a ∨
            t.claims.get k = .held l u ∧ t.grants.get k = some a) ∧
        passMade h s t ∧
        sameHeads s t ∧ sameTools s t ∧ t.reader = s.reader)))

/-- CLAIM_GRANT (R117): a unit in ZONE_WAIT that still waits for the order the grant is for enters START_WAIT
holding the claim; any other grant changes no head. -/
def Obligations.GrantEntersStartWait : Prop :=
  ∀ (s : State) (h : HeadId) (age : Nat), s.grants.get h = some age →
    Answers (.claimGrant h) s (fun t =>
      t.grants.get h = none ∧ t.claims = s.claims ∧ sameTools s t ∧ t.reader = s.reader ∧
      (if (s.head h).state = .zoneWait ∧ (s.head h).claim = .requested ∧
          (s.head h).current.map (·.age) = some age then
        (∀ k ∈ s.unit h, (t.head k).state = .startWait) ∧ (t.head h).claim = .held
      else sameHeads s t))

/-! ## Results and header (chapter 9) -/

/-- TRACE_WRITE_DONE (R162): the rows written leave the buffer; with no outcome being written and rows left, the
next write carries them all; an outcome that waits for it goes on with its first entry. OUTCOME_WRITE_DONE
(R161): after entry `i` the next entry is written; after the last, the trace rows still held, in one write;
after them, or with none held, the device fields; after these the status DONE. A row offered to the trace
(R163): without a trace area, or once TRACE_FULL is set, nothing; accepted when the area and the buffer of 64
have room, else TRACE_FULL. The bytes of a row (R162). What the device fields hold (R160): of a stroke the
outcome's counts, its depths, the peak sum force, the overrun count, the bytes accepted, TRACE_FULL where set,
and RESULTS_WRITTEN; of an order without a stroke nothing but outcome, reason and WITHDRAW_SEEN for WITHDRAWN;
and how they are laid out, with their codes. -/
def Obligations.TraceAndClosingWrites : Prop :=
  (∀ (o : Order) (row : TraceRow) (w : Trace),
    w.accept o row =
      if o.traceArea = 0 ∨ w.full = true then w
      else if (w.accepted + 1) * w.rowSize ≤ o.traceCapacity ∧ w.rows.length < 64 then
        { w with rows := w.rows ++ [row], accepted := w.accepted + 1 }
      else { w with full := true }) ∧
  (∀ row : TraceRow, row.bytes.length = 4 + 4 * row.forces.length ∧
    u32At row.bytes 0 = pattern32 row.depth ∧
    ∀ (i : Nat) (force : Option Int), row.forces[i]? = some force →
      u32At row.bytes (4 + 4 * i) = (match force with
        | none => 0x80000000
        | some f => pattern32 f)) ∧
  (∀ (s : State) (h : HeadId) (c : Closing),
    let f := s.fieldsOf h c
    f.outcome = c.result.outcome ∧ f.reason = c.result.reason ∧
    (c.stroke = true →
      f.resultsWritten = true ∧ f.withdrawSeen = false ∧ f.traceFull = (s.head h).trace.full ∧
      f.failed = c.result.failed ∧ f.notChecked = c.result.notChecked ∧ f.unjudged = c.result.unjudged ∧
      f.overruns = (s.sense h).overruns ∧ f.peak = (s.sense h).peak ∧ f.contactDepth = c.contactDepth ∧
      f.seatDepth = c.seatDepth ∧ f.traceBytes = (s.head h).trace.accepted * (s.head h).trace.rowSize) ∧
    (c.stroke = false →
      f.resultsWritten = false ∧ f.traceFull = false ∧
      (f.withdrawSeen = true ↔ c.result.outcome = .withdrawn) ∧
      f.failed = 0 ∧ f.notChecked = 0 ∧ f.unjudged = 0 ∧ f.overruns = 0 ∧ f.peak = 0 ∧
      f.contactDepth = 0 ∧ f.seatDepth = 0 ∧ f.traceBytes = 0)) ∧
  (∀ f : DeviceFields,
    let d := f.bytes
    d.length = 32 ∧ byteAt d 0 = f.outcome.code ∧ byteAt d 1 = f.reason.code ∧
    byteAt d 2 = (if f.traceFull then 1 else 0) + (if f.withdrawSeen then 2 else 0) +
      (if f.resultsWritten then 4 else 0) ∧
    byteAt d 3 = 0 ∧ u16At d 4 = f.failed % 2 ^ 16 ∧ u16At d 6 = f.notChecked % 2 ^ 16 ∧
    u16At d 8 = f.unjudged % 2 ^ 16 ∧ u16At d 10 = f.overruns % 2 ^ 16 ∧
    u32At d 12 = pattern32 f.contactDepth ∧ u32At d 16 = pattern32 f.seatDepth ∧
    u32At d 20 = pattern32 f.peak ∧ u32At d 24 = f.traceBytes % 2 ^ 32 ∧ u32At d 28 = 0) ∧
  ([OrderOutcome.pass, .fail, .refused, .rejected, .withdrawn, .aborted, .stopped].map OrderOutcome.code =
      [1, 2, 3, 4, 5, 6, 7] ∧
    [Reason.none, .badHead, .badField, .badTable, .capacity, .gangOff, .toolAbsent, .toolFault, .toolType,
      .toolWorn, .gangMismatch, .ramNotTop, .plan, .memory, .channel, .pin, .noSeat, .seatRange, .noContact,
      .overforce, .pinHalt, .earlyContact, .skew, .stall, .guard, .estop, .startReleased, .positionLost,
      .toolLost, .haltCmd, .abortCmd, .fault, .deviceStop].map Reason.code =
      [0, 1, 2, 3, 4, 5, 16, 17, 18, 19, 20, 21, 22, 23, 24, 32, 33, 34, 35, 48, 49, 50, 51, 52, 53, 54, 55,
        56, 57, 58, 59, 60, 64]) ∧
  (∀ (s : State) (h : HeadId) (o : Order), inFlightFor (.traceWrite h) s →
    (s.head h).current = some o → (s.head h).closing = none → (s.head h).writeFailed = false →
    Answers (.traceWriteDone h) s (fun t =>
      (t.head h).trace.rows = (s.head h).trace.rows.drop (s.head h).trace.inFlight ∧
      (t.head h).trace.accepted = (s.head h).trace.accepted ∧
      (t.head h).trace.inFlight = (t.head h).trace.rows.length ∧
      ((t.head h).trace.rows ≠ [] → writes (.traceWrite h)
        (o.traceArea + ((s.head h).trace.accepted - (t.head h).trace.rows.length) *
          (s.head h).trace.rowSize)
        (t.head h).trace.bytes t) ∧
      othersSame [h] s t ∧ t.claims = s.claims ∧ t.reader = s.reader)) ∧
  (∀ (s : State) (h : HeadId) (c : Closing) (e : ResultEntry) (more : List ResultEntry),
    inFlightFor (.traceWrite h) s → (s.head h).closing = some c → c.stage = .traceFlight →
    c.result.entries = e :: more →
    Answers (.traceWriteDone h) s (fun t =>
      (t.head h).trace.rows = (s.head h).trace.rows.drop (s.head h).trace.inFlight ∧
      (t.head h).closing = some { c with stage := .entry 0 } ∧
      writes (.outcomeWrite h) (c.order.resultArea + 16 * e.index) e.bytes t ∧
      othersSame [h] s t)) ∧
  (∀ (s : State) (h : HeadId) (c : Closing), inFlightFor (.outcomeWrite h) s →
    (s.head h).closing = some c →
    (∀ i e, c.stage = .entry i → c.result.entries[i + 1]? = some e →
      Answers (.outcomeWriteDone h) s (fun t =>
        (t.head h).closing = some { c with stage := .entry (i + 1) } ∧
        writes (.outcomeWrite h) (c.order.resultArea + 16 * e.index) e.bytes t ∧
        othersSame [h] s t)) ∧
    (∀ i, c.stage = .entry i → c.result.entries[i + 1]? = none → (s.head h).trace.rows = [] →
      Answers (.outcomeWriteDone h) s (fun t =>
        (t.head h).closing = some { c with stage := .fields } ∧
        writes (.outcomeWrite h) (fieldsOffset c.order.record) (s.fieldsOf h c).bytes t ∧
        othersSame [h] s t)) ∧
    (∀ i, c.stage = .entry i → c.result.entries[i + 1]? = none → (s.head h).trace.rows ≠ [] →
      Answers (.outcomeWriteDone h) s (fun t =>
        (t.head h).closing = some { c with stage := .rows } ∧
        writes (.outcomeWrite h)
          (c.order.traceArea + ((s.head h).trace.accepted - (s.head h).trace.rows.length) *
            (s.head h).trace.rowSize)
          (s.head h).trace.bytes t ∧
        othersSame [h] s t)) ∧
    (c.stage = .rows →
      Answers (.outcomeWriteDone h) s (fun t =>
        (t.head h).closing = some { c with stage := .fields } ∧ (t.head h).trace.rows = [] ∧
        writes (.outcomeWrite h) (fieldsOffset c.order.record) (s.fieldsOf h c).bytes t ∧
        othersSame [h] s t)) ∧
    (c.stage = .fields →
      Answers (.outcomeWriteDone h) s (fun t =>
        (t.head h).closing = some { c with stage := .done } ∧
        writes (.outcomeWrite h) (statusOffset c.order.record) [statusDone] t ∧
        othersSame [h] s t)))

/-- OUTCOME_WRITE_DONE of the status DONE (R66, R153): the writing is over; the reader removes the order from
its lists, counts it and raises DONE; a stroke that ended in SEEK, PRESS or DWELL rises in RETRACT, a HALTED
head stays HALTED, a refused order leaves its head at rest. In a gang the primary reports and both heads move
together, to rest each by its own enable bit (R73, R74). That a HALTED head drops its order is the model's reading
(log 32). That an enabled head rests in OFFLINE and not in IDLE while an abort is under way, the device still shown
RUNNING or STOPPING, is the model's choice (log 11). -/
def Obligations.DoneIsReportedAndRecorded : Prop :=
  ∀ (s : State) (h : HeadId) (c : Closing), inFlightFor (.outcomeWrite h) s →
    (s.head h).closing = some c → c.stage = .done → s.leads h = true →
    Answers (.outcomeWriteDone h) s (fun t =>
      (t.head h).closing = none ∧ flagged .done t ∧
      t.reader.completed = s.reader.completed + 1 ∧
      t.reader.taken = s.reader.taken.filter (fun o => o.age ≠ c.order.age) ∧
      t.reader.queues = s.reader.queues.map (fun q => q.filter (· ≠ c.order.age)) ∧
      ((s.head h).state = .halted → ∀ k ∈ s.unit h,
        (t.head k).state = (s.head k).state ∧ (t.head k).current = none) ∧
      ((s.head h).state.beforeStroke = true → ∀ k ∈ s.unit h,
        (t.head k).state = s.restState k ∧ (t.head k).gang = false) ∧
      (((s.head h).state = .seek ∨ (s.head h).state = .press ∨ (s.head h).state = .dwell) →
        (∀ k ∈ s.unit h, s.ramTop k = false) →
        ∀ k ∈ s.unit h, (t.head k).state = .retract ∧ (t.head k).direction = .up ∧
          (t.head k).brake = false ∧ (t.head k).guardArmed = true) ∧
      t.claims = s.claims)

/-- HEADER_WRITE_DONE (R165): one more write of the part when its rewrite mark is set, which it clears. A write
of a part is asked for (R99, R165, R171): of the device part, with RUNST, at a change of device state; of a live
block at a change of head state or last halt reason, and, with TOOL, of tool state or at a setting of WORN; of
the chain part where the reader changes; none without a taken area, and none beside one that waits. The bytes
are those of the part at the grant (R165, R166, sections 11.1 and 11.6). That the whole-header write of a start
does not count as a write of a part is the model's choice (log 50), as are the stop as a cause for a reader
already STOPPED (log 54) and the tool type shown in IDENTIFY (log 37). -/
def Obligations.MarkedHeaderPartIsWrittenAgain : Prop :=
  (∀ s : State,
    (∀ d, if d = s.control.device then setDevice d s = s
      else (setDevice d s).control = flagSet 0x80#8 { s.control with device := d } ∧
        partAsked .device 0 s (setDevice d s)) ∧
    (∀ f, (changeReader f s).reader = f s.reader ∧ partAsked .chain 16 s (changeReader f s)) ∧
    ∀ h : HeadId,
      (∀ st, if st = (s.head h).state then putState st h s = s
        else ((putState st h s).head h).state = st ∧ partAsked (.live h) (128 + 32 * h.toNat) s (putState st h s)) ∧
      (∀ why, if why = (s.head h).lastHalt then putHaltReason why h s = s
        else ((putHaltReason why h s).head h).lastHalt = why ∧
          partAsked (.live h) (128 + 32 * h.toNat) s (putHaltReason why h s)) ∧
      ∀ f, let after := f (s.tool h)
        (changeTool h f s).tool h = after ∧
        if after.state ≠ (s.tool h).state ∨ after.worn = true ∧ (s.tool h).worn = false then
          (changeTool h f s).control = flagSet 0x10#8 s.control ∧
          partAsked (.live h) (128 + 32 * h.toNat) s (changeTool h f s)
        else (changeTool h f s).control = s.control ∧ (changeTool h f s).bus = s.bus ∧
          (changeTool h f s).rewrite = s.rewrite) ∧
  (∀ (s : State) (r : BusReq) (p : HeaderPart), r.access = .header p →
    let d := (s.grantOf r).data
    (s.grantOf r).granted = true ∧ (s.grantOf r).addr = r.addr ∧ (s.grantOf r).len = d.length ∧
    (p = .device → d.length = 16 ∧ byteAt d 0 = s.control.device.code ∧
      ∀ i, 1 ≤ i → i < 16 → byteAt d i = 0) ∧
    (p = .chain → chainBytes s.reader d) ∧ ∀ h, p = .live h → liveBytes s h d) ∧
  ([DeviceState.stopped, .starting, .running, .stopping, .estop, .setupErr, .fault].map DeviceState.code =
      [0, 1, 2, 3, 4, 5, 6] ∧
    [ReaderState.stopped, .reading, .waiting, .held, .faulted].map ReaderState.code = [0, 1, 2, 3, 4] ∧
    [ChainFault.none, .badLink, .turn, .memory].map ChainFault.code = [0, 1, 2, 3] ∧
    [HeadState.offline, .idle, .prepare, .zoneWait, .startWait, .approach, .seek, .press, .dwell, .retract,
      .halted, .recover].map HeadState.code = [0, 1, 2, 3, 4, 5, 6, 7, 8, 9, 10, 11]) ∧
  ∀ (s : State) (p : HeaderPart) (r : BusReq) (rest : List BusReq), OneInFlight s →
    s.bus = r :: rest → r.granted = true → r.fate = .live → r.access = .header p →
    Answers (.headerWriteDone p) s (fun t =>
      t.rewrite.marked p = false ∧ t.control = s.control ∧ sameBlocks s t ∧
      (s.rewrite.marked p = true → s.control.area ≠ none →
        ∃ q ∈ t.bus, q.access = .header p ∧ q.fate = .live) ∧
      (s.rewrite.marked p = false →
        (t.bus.map BusReq.key).Perm (rest.map BusReq.key)))

/-! ## The order chain (chapter 8) -/

/-- LINK_READ_DONE (R143, R150): 0 is the end of the chain: WAITING with the poll timer loaded and IDLE raised
once for the anchor, or with a nudge pending the link is read again; a link that is not a multiple of 64, lies
below 512 or leaves no 128 bytes of room in the area, or that is the anchor or the record of an order on the
taken list or in the held slot, is a BAD_LINK fault, and a bus error a MEMORY fault; any other link is followed
by a fetch of its record. -/
def Obligations.LinkReadLeadsOn : Prop :=
  ∀ s : State, inFlightFor .linkRead s →
    Answers (.linkReadDone none) s (chainFaulted .memory s) ∧
    (s.reader.pendingNudge = false →
      Answers (.linkReadDone (some 0)) s (fun t =>
        t.reader.state = .waiting ∧ t.reader.anchor = s.reader.anchor ∧
        t.reader.poll = (if s.setup.pollInterval = 0 then none else some s.setup.pollInterval) ∧
        (s.reader.idleRaised = false → flagged .idle t) ∧
        (s.reader.idleRaised = true → t.control.evt = s.control.evt) ∧ sameHeads s t)) ∧
    (s.reader.pendingNudge = true →
      Answers (.linkReadDone (some 0)) s (fun t =>
        t.reader = { s.reader with pendingNudge := false, op := .link } ∧
        reads .linkRead s.reader.anchor 4 t ∧ t.control.evt = s.control.evt)) ∧
    (∀ w : Word, w ≠ 0 → badLink s w.toNat →
      Answers (.linkReadDone (some w)) s (chainFaulted .badLink s)) ∧
    (∀ w : Word, w ≠ 0 → ¬badLink s w.toNat →
      Answers (.linkReadDone (some w)) s (fun t =>
        t.reader = { s.reader with op := .fetch w.toNat } ∧ reads .orderFetch w.toNat 128 t))

/-- ORDER_FETCH_DONE (R144 to R147): the turn is looked at first, and a wrong one is a TURN fault; the first
failing check of 1 to 12, made on the record's bytes in the order of the table, rejects the order with its
reason; of an order that passes the fields are copied, whatever its withdraw field, and its pin map's slot is
read. -/
def Obligations.FetchedOrderIsChecked : Prop :=
  ∀ (s : State) (record : Nat) (d : List Byte), inFlightFor .orderFetch s →
    s.reader.op = .fetch record →
    Answers (.orderFetchDone none) s (chainFaulted .memory s) ∧
    (recordTurn d ≠ (if s.reader.expectedTurn then 1 else 0) →
      Answers (.orderFetchDone (some d)) s (chainFaulted .turn s)) ∧
    (recordTurn d = (if s.reader.expectedTurn then 1 else 0) →
      (∀ why, recordRefusal s.setup d = some why →
        Answers (.orderFetchDone (some d)) s (fun t =>
          t.reader.op = .rejectFields record ∧ t.reader.anchor = s.reader.anchor ∧
          writes .rejectWrite (fieldsOffset record) (DeviceFields.bare .rejected why).bytes t)) ∧
      (recordRefusal s.setup d = none →
        Answers (.orderFetchDone (some d)) s (fun t =>
          t.reader.anchor = s.reader.anchor ∧
          (∃ o withdraw, t.reader.op = .slot o withdraw ∧ o.record = record ∧ copiesRecord d o ∧
            (withdraw = true ↔ byteAt d 6 ≠ 0)) ∧
          reads .slotRead (s.setup.directory + 4 * byteAt d 15) 4 t)))

/-- TAKE_TABLE_READ_DONE of the pin map's slot and of its header, and HELD_WITHDRAW_READ_DONE (R145 to R148): a
slot that is 0, not aligned or without room for the header rejects the order; from a good one the header is
read; a bad pin count or a capacity below it rejects the order; withdraw set ends it WITHDRAWN; otherwise it is
taken when there is room, its status TAKEN being written, and held when there is none; a bus error is a MEMORY
fault. -/
def Obligations.ValidOrderIsTakenHeldOrEnded : Prop :=
  ∀ (s : State) (o : Order) (withdraw : Bool) (d : List Byte),
    (inFlightFor .slotRead s → s.reader.op = .slot o withdraw →
      Answers (.takeTableReadDone none) s (chainFaulted .memory s) ∧
      (u32At d 0 = 0 ∨ u32At d 0 % 64 ≠ 0 ∨ s.setup.areaSize < u32At d 0 + 32 →
        Answers (.takeTableReadDone (some d)) s (fun t =>
          writes .rejectWrite (fieldsOffset o.record)
            (DeviceFields.bare .rejected .badTable).bytes t)) ∧
      (u32At d 0 ≠ 0 → u32At d 0 % 64 = 0 → u32At d 0 + 32 ≤ s.setup.areaSize →
        Answers (.takeTableReadDone (some d)) s (fun t =>
          t.reader = { s.reader with op := .mapHeader o withdraw } ∧
          reads .mapRead (u32At d 0) 32 t))) ∧
    (inFlightFor .mapRead s → s.reader.op = .mapHeader o withdraw →
      Answers (.takeTableReadDone none) s (chainFaulted .memory s) ∧
      (¬(1 ≤ u16At d 2 ∧ u16At d 2 ≤ 1024) →
        Answers (.takeTableReadDone (some d)) s (fun t =>
          writes .rejectWrite (fieldsOffset o.record)
            (DeviceFields.bare .rejected .badTable).bytes t)) ∧
      (1 ≤ u16At d 2 → u16At d 2 ≤ 1024 →
        (o.resultCapacity < u16At d 2 →
          Answers (.takeTableReadDone (some d)) s (fun t =>
            writes .rejectWrite (fieldsOffset o.record)
              (DeviceFields.bare .rejected .capacity).bytes t)) ∧
        (u16At d 2 ≤ o.resultCapacity → withdraw = true →
          Answers (.takeTableReadDone (some d)) s (fun t =>
            writes .rejectWrite (fieldsOffset o.record)
              (DeviceFields.bare .withdrawn .none).bytes t)) ∧
        (u16At d 2 ≤ o.resultCapacity → withdraw = false → s.reader.room o = true →
          Answers (.takeTableReadDone (some d)) s (fun t =>
            t.reader.op = .taken { o with pinCount := u16At d 2 } ∧
            writes .takenWrite (statusOffset o.record) [statusTaken] t)) ∧
        (u16At d 2 ≤ o.resultCapacity → withdraw = false → s.reader.room o = false →
          Answers (.takeTableReadDone (some d)) s (fun t =>
            t.reader.state = .held ∧
            t.reader.heldSlot = some { o with pinCount := u16At d 2 })))) ∧
    (inFlightFor .heldRead s → s.reader.heldSlot = some o →
      Answers (.heldWithdrawReadDone none) s (chainFaulted .memory s) ∧
      Answers (.heldWithdrawReadDone (some 0)) s (fun t =>
        t.reader.op = .taken o ∧ writes .takenWrite (statusOffset o.record) [statusTaken] t) ∧
      (∀ v, v ≠ 0 → Answers (.heldWithdrawReadDone (some v)) s (fun t =>
        writes .rejectWrite (fieldsOffset o.record) (DeviceFields.bare .withdrawn .none).bytes t)))

/-- TAKEN_WRITE_DONE, REJECT_WRITE_DONE and STOP_WRITE_DONE (R146, R147, R149, R155): a taken order joins the
list and its queues at their tails and is disposed of, and a READING reader reads its link; an ended order's
device fields are followed by DONE, and DONE by the count, the event, and for a rejected order the disposal, for
a stopped one its removal from the lists. That the link read is asked for with the header write of the new
anchor, and does not wait for it, is the model's choice (log 52). -/
def Obligations.ChainWritesDisposeOfOrders : Prop :=
  ∀ s : State,
    (∀ o, inFlightFor .takenWrite s → s.reader.op = .taken o →
      (o.ganged = true → o.head = o.head.primary) →
      Answers .takenWriteDone s (fun t =>
        disposed o.record s t ∧ t.reader.taken = s.reader.taken ++ [o] ∧
        (∀ h, t.reader.queues.get h =
          if h ∈ o.heads then s.reader.queues.get h ++ [o.age] else s.reader.queues.get h) ∧
        (s.reader.state = .reading → reads .linkRead o.record 4 t) ∧ sameHeads s t)) ∧
    (∀ record, inFlightFor .rejectWrite s → s.reader.op = .rejectFields record →
      Answers .rejectWriteDone s (fun t =>
        t.reader.op = .rejectDone record ∧ t.reader.completed = s.reader.completed ∧
        writes .rejectWrite (statusOffset record) [statusDone] t)) ∧
    (∀ record, inFlightFor .rejectWrite s → s.reader.op = .rejectDone record →
      Answers .rejectWriteDone s (fun t =>
        disposed record s t ∧ flagged .done t ∧
        t.reader.completed = s.reader.completed + 1 ∧
        (s.reader.state = .reading → reads .linkRead record 4 t))) ∧
    (∀ o, inFlightFor .stopWrite s → s.reader.op = .stopFields o.age →
      s.reader.find o.age = some o →
      Answers .stopWriteDone s (fun t =>
        t.reader.op = .stopDone o.age ∧
        writes .stopWrite (statusOffset o.record) [statusDone] t)) ∧
    (∀ age, inFlightFor .stopWrite s → s.reader.op = .stopDone age →
      Answers .stopWriteDone s (fun t =>
        flagged .done t ∧ t.reader.completed = s.reader.completed + 1 ∧
        t.reader.taken = s.reader.taken.filter (fun o => o.age ≠ age) ∧
        t.reader.queues = s.reader.queues.map (fun q => q.filter (· ≠ age)) ∧
        t.reader.anchor = s.reader.anchor ∧ sameHeads s t))

/-- POLL_TIMER_EXPIRE (R150): a WAITING reader whose timer stands at 0 reads the anchor's link.
BUS_READ_TIMEOUT (R140): a read without completion is a bus error, as its completion with none would be
told. -/
def Obligations.PollTimerAndReadTimeout : Prop :=
  (∀ s : State, s.reader.state = .waiting → s.reader.poll = some 0 →
    Answers .pollTimerExpire s (fun t =>
      t.reader = { s.reader with state := .reading, poll := none, op := .link } ∧
      reads .linkRead s.reader.anchor 4 t ∧ t.control = s.control ∧ sameHeads s t ∧ sameTools s t ∧
      sameBoard s t)) ∧
  (∀ s : State,
    (inFlightFor .linkRead s → exec .busReadTimeout s = exec (.linkReadDone none) s ∧
      Answers .busReadTimeout s (chainFaulted .memory s)) ∧
    (inFlightFor .setupRead s → exec .busReadTimeout s = exec (.setupReadDone none) s) ∧
    (inFlightFor .orderFetch s → exec .busReadTimeout s = exec (.orderFetchDone none) s) ∧
    ((inFlightFor .slotRead s ∨ inFlightFor .mapRead s) →
      exec .busReadTimeout s = exec (.takeTableReadDone none) s) ∧
    (inFlightFor .heldRead s → exec .busReadTimeout s = exec (.heldWithdrawReadDone none) s) ∧
    (∀ h, (inFlightFor (.withdrawRead h) s ∨ inFlightFor (.nudgeRead h) s) →
      exec .busReadTimeout s = exec (.withdrawReadDone h none) s) ∧
    (∀ h, inFlightFor (.startRead h) s →
      exec .busReadTimeout s = exec (.startWithdrawReadDone h none) s) ∧
    (∀ h, inFlightFor (.planRead h) s →
      exec .busReadTimeout s = exec (.planReadDone h none) s))
end

