-- ==== Sys2Proof/Laws/State.lean ====
section
/-! SUPPORT. One lemma for each field and each update of State: an update changes its own field and no
other; and reading one of four things after one of them has been set. -/

namespace Sys2Proof

/-- Reading the thing that was set. -/
@[simp] theorem Four.get_set_same {α : Type} (v : Four α) (h : HeadId) (a : α) : (v.set h a).get h = a := by
  cases h <;> rfl

/-- Reading another thing than the one that was set. -/
@[simp] theorem Four.get_set_other {α : Type} (v : Four α) {h k : HeadId} (a : α) (hk : k ≠ h) :
    (v.set h a).get k = v.get k := by
  cases h <;> cases k <;> first | rfl | exact absurd rfl hk

/-- Reading after a set, both cases. -/
theorem Four.get_set {α : Type} (v : Four α) (h k : HeadId) (a : α) :
    (v.set h a).get k = if k = h then a else v.get k := by
  cases h <;> cases k <;> rfl

/-- Reading after all four have been changed alike. -/
@[simp] theorem Four.get_map {α β : Type} (f : α → β) (v : Four α) (h : HeadId) :
    (v.map f).get h = f (v.get h) := by
  cases h <;> rfl

/-- Reading one of four equal things. -/
@[simp] theorem Four.get_all {α : Type} (a : α) (h : HeadId) : (Four.all a).get h = a := by
  cases h <;> rfl

/-- Setting a thing to what it is changes nothing. -/
@[simp] theorem Four.set_get {α : Type} (v : Four α) (h : HeadId) : v.set h (v.get h) = v := by
  cases h <;> rfl

/-- Four things are equal when each is. -/
theorem Four.eq_of_get {α : Type} {v w : Four α} (e : ∀ h, v.get h = w.get h) : v = w := by
  cases v; cases w
  have e0 := e .h0; have e1 := e .h1; have e2 := e .h2; have e3 := e .h3
  simp_all [Four.get]

/-- The companion's pair is its head's pair. -/
@[simp] theorem HeadId.primary_companion (h : HeadId) : h.companion.primary = h.primary := by cases h <;> rfl
/-- The primary's companion. -/
@[simp] theorem HeadId.companion_primary (h : HeadId) : h.primary.companion = h.companion := by
  cases h <;> rfl
/-- The primary leads its pair. -/
@[simp] theorem HeadId.primary_primary (h : HeadId) : h.primary.primary = h.primary := by cases h <;> rfl
/-- The companion follows in its pair. -/
@[simp] theorem HeadId.companion_companion (h : HeadId) : h.companion.companion = h.companion := by
  cases h <;> rfl
/-- The two heads of a pair differ. -/
@[simp] theorem HeadId.companion_ne_primary (h : HeadId) : h.companion ≠ h.primary := by cases h <;> decide
/-- Every head is the primary or the companion of its pair. -/
theorem HeadId.primary_or_companion (h : HeadId) : h = h.primary ∨ h = h.companion := by
  cases h <;> decide
/-- The list of all heads holds every head. -/
@[simp] theorem HeadId.mem_all (h : HeadId) : h ∈ HeadId.all := by cases h <;> decide

end Sys2Proof

namespace Sys2Proof.Machine

/-! ### modHead -/

@[simp] theorem modHead_pending (h : HeadId) (f : Head → Head) (s : State) :
    (modHead h f s).pending = s.pending := rfl
@[simp] theorem modHead_control (h : HeadId) (f : Head → Head) (s : State) :
    (modHead h f s).control = s.control := rfl
@[simp] theorem modHead_bus (h : HeadId) (f : Head → Head) (s : State) : (modHead h f s).bus = s.bus := rfl
@[simp] theorem modHead_rewrite (h : HeadId) (f : Head → Head) (s : State) :
    (modHead h f s).rewrite = s.rewrite := rfl
@[simp] theorem modHead_stamp (h : HeadId) (f : Head → Head) (s : State) :
    (modHead h f s).stamp = s.stamp := rfl
@[simp] theorem modHead_choices (h : HeadId) (f : Head → Head) (s : State) :
    (modHead h f s).choices = s.choices := rfl
@[simp] theorem modHead_micros (h : HeadId) (f : Head → Head) (s : State) :
    (modHead h f s).micros = s.micros := rfl
@[simp] theorem modHead_reader (h : HeadId) (f : Head → Head) (s : State) :
    (modHead h f s).reader = s.reader := rfl
@[simp] theorem modHead_heads (h : HeadId) (f : Head → Head) (s : State) :
    (modHead h f s).heads = s.heads.set h (f (s.heads.get h)) := rfl
@[simp] theorem modHead_senses (h : HeadId) (f : Head → Head) (s : State) :
    (modHead h f s).senses = s.senses := rfl
@[simp] theorem modHead_plans (h : HeadId) (f : Head → Head) (s : State) :
    (modHead h f s).plans = s.plans := rfl
@[simp] theorem modHead_tools (h : HeadId) (f : Head → Head) (s : State) :
    (modHead h f s).tools = s.tools := rfl
@[simp] theorem modHead_toolBus (h : HeadId) (f : Head → Head) (s : State) :
    (modHead h f s).toolBus = s.toolBus := rfl
@[simp] theorem modHead_claims (h : HeadId) (f : Head → Head) (s : State) :
    (modHead h f s).claims = s.claims := rfl
@[simp] theorem modHead_claimMsgs (h : HeadId) (f : Head → Head) (s : State) :
    (modHead h f s).claimMsgs = s.claimMsgs := rfl
@[simp] theorem modHead_grants (h : HeadId) (f : Head → Head) (s : State) :
    (modHead h f s).grants = s.grants := rfl
@[simp] theorem modHead_inputs (h : HeadId) (f : Head → Head) (s : State) :
    (modHead h f s).inputs = s.inputs := rfl

/-! ### modSense -/

@[simp] theorem modSense_pending (h : HeadId) (f : Sense → Sense) (s : State) :
    (modSense h f s).pending = s.pending := rfl
@[simp] theorem modSense_control (h : HeadId) (f : Sense → Sense) (s : State) :
    (modSense h f s).control = s.control := rfl
@[simp] theorem modSense_bus (h : HeadId) (f : Sense → Sense) (s : State) :
    (modSense h f s).bus = s.bus := rfl
@[simp] theorem modSense_rewrite (h : HeadId) (f : Sense → Sense) (s : State) :
    (modSense h f s).rewrite = s.rewrite := rfl
@[simp] theorem modSense_stamp (h : HeadId) (f : Sense → Sense) (s : State) :
    (modSense h f s).stamp = s.stamp := rfl
@[simp] theorem modSense_choices (h : HeadId) (f : Sense → Sense) (s : State) :
    (modSense h f s).choices = s.choices := rfl
@[simp] theorem modSense_micros (h : HeadId) (f : Sense → Sense) (s : State) :
    (modSense h f s).micros = s.micros := rfl
@[simp] theorem modSense_reader (h : HeadId) (f : Sense → Sense) (s : State) :
    (modSense h f s).reader = s.reader := rfl
@[simp] theorem modSense_heads (h : HeadId) (f : Sense → Sense) (s : State) :
    (modSense h f s).heads = s.heads := rfl
@[simp] theorem modSense_senses (h : HeadId) (f : Sense → Sense) (s : State) :
    (modSense h f s).senses = s.senses.set h (f (s.senses.get h)) := rfl
@[simp] theorem modSense_plans (h : HeadId) (f : Sense → Sense) (s : State) :
    (modSense h f s).plans = s.plans := rfl
@[simp] theorem modSense_tools (h : HeadId) (f : Sense → Sense) (s : State) :
    (modSense h f s).tools = s.tools := rfl
@[simp] theorem modSense_toolBus (h : HeadId) (f : Sense → Sense) (s : State) :
    (modSense h f s).toolBus = s.toolBus := rfl
@[simp] theorem modSense_claims (h : HeadId) (f : Sense → Sense) (s : State) :
    (modSense h f s).claims = s.claims := rfl
@[simp] theorem modSense_claimMsgs (h : HeadId) (f : Sense → Sense) (s : State) :
    (modSense h f s).claimMsgs = s.claimMsgs := rfl
@[simp] theorem modSense_grants (h : HeadId) (f : Sense → Sense) (s : State) :
    (modSense h f s).grants = s.grants := rfl
@[simp] theorem modSense_inputs (h : HeadId) (f : Sense → Sense) (s : State) :
    (modSense h f s).inputs = s.inputs := rfl

/-! ### setPlan -/

@[simp] theorem setPlan_pending (h : HeadId) (p : PlanState) (s : State) :
    (setPlan h p s).pending = s.pending := rfl
@[simp] theorem setPlan_control (h : HeadId) (p : PlanState) (s : State) :
    (setPlan h p s).control = s.control := rfl
@[simp] theorem setPlan_bus (h : HeadId) (p : PlanState) (s : State) : (setPlan h p s).bus = s.bus := rfl
@[simp] theorem setPlan_rewrite (h : HeadId) (p : PlanState) (s : State) :
    (setPlan h p s).rewrite = s.rewrite := rfl
@[simp] theorem setPlan_stamp (h : HeadId) (p : PlanState) (s : State) :
    (setPlan h p s).stamp = s.stamp := rfl
@[simp] theorem setPlan_choices (h : HeadId) (p : PlanState) (s : State) :
    (setPlan h p s).choices = s.choices := rfl
@[simp] theorem setPlan_micros (h : HeadId) (p : PlanState) (s : State) :
    (setPlan h p s).micros = s.micros := rfl
@[simp] theorem setPlan_reader (h : HeadId) (p : PlanState) (s : State) :
    (setPlan h p s).reader = s.reader := rfl
@[simp] theorem setPlan_heads (h : HeadId) (p : PlanState) (s : State) :
    (setPlan h p s).heads = s.heads := rfl
@[simp] theorem setPlan_senses (h : HeadId) (p : PlanState) (s : State) :
    (setPlan h p s).senses = s.senses := rfl
@[simp] theorem setPlan_plans (h : HeadId) (p : PlanState) (s : State) :
    (setPlan h p s).plans = s.plans.set h p := rfl
@[simp] theorem setPlan_tools (h : HeadId) (p : PlanState) (s : State) :
    (setPlan h p s).tools = s.tools := rfl
@[simp] theorem setPlan_toolBus (h : HeadId) (p : PlanState) (s : State) :
    (setPlan h p s).toolBus = s.toolBus := rfl
@[simp] theorem setPlan_claims (h : HeadId) (p : PlanState) (s : State) :
    (setPlan h p s).claims = s.claims := rfl
@[simp] theorem setPlan_claimMsgs (h : HeadId) (p : PlanState) (s : State) :
    (setPlan h p s).claimMsgs = s.claimMsgs := rfl
@[simp] theorem setPlan_grants (h : HeadId) (p : PlanState) (s : State) :
    (setPlan h p s).grants = s.grants := rfl
@[simp] theorem setPlan_inputs (h : HeadId) (p : PlanState) (s : State) :
    (setPlan h p s).inputs = s.inputs := rfl

/-! ### modTool -/

@[simp] theorem modTool_pending (h : HeadId) (f : Tool → Tool) (s : State) :
    (modTool h f s).pending = s.pending := rfl
@[simp] theorem modTool_control (h : HeadId) (f : Tool → Tool) (s : State) :
    (modTool h f s).control = s.control := rfl
@[simp] theorem modTool_bus (h : HeadId) (f : Tool → Tool) (s : State) : (modTool h f s).bus = s.bus := rfl
@[simp] theorem modTool_rewrite (h : HeadId) (f : Tool → Tool) (s : State) :
    (modTool h f s).rewrite = s.rewrite := rfl
@[simp] theorem modTool_stamp (h : HeadId) (f : Tool → Tool) (s : State) :
    (modTool h f s).stamp = s.stamp := rfl
@[simp] theorem modTool_choices (h : HeadId) (f : Tool → Tool) (s : State) :
    (modTool h f s).choices = s.choices := rfl
@[simp] theorem modTool_micros (h : HeadId) (f : Tool → Tool) (s : State) :
    (modTool h f s).micros = s.micros := rfl
@[simp] theorem modTool_reader (h : HeadId) (f : Tool → Tool) (s : State) :
    (modTool h f s).reader = s.reader := rfl
@[simp] theorem modTool_heads (h : HeadId) (f : Tool → Tool) (s : State) :
    (modTool h f s).heads = s.heads := rfl
@[simp] theorem modTool_senses (h : HeadId) (f : Tool → Tool) (s : State) :
    (modTool h f s).senses = s.senses := rfl
@[simp] theorem modTool_plans (h : HeadId) (f : Tool → Tool) (s : State) :
    (modTool h f s).plans = s.plans := rfl
@[simp] theorem modTool_tools (h : HeadId) (f : Tool → Tool) (s : State) :
    (modTool h f s).tools = s.tools.set h (f (s.tools.get h)) := rfl
@[simp] theorem modTool_toolBus (h : HeadId) (f : Tool → Tool) (s : State) :
    (modTool h f s).toolBus = s.toolBus := rfl
@[simp] theorem modTool_claims (h : HeadId) (f : Tool → Tool) (s : State) :
    (modTool h f s).claims = s.claims := rfl
@[simp] theorem modTool_claimMsgs (h : HeadId) (f : Tool → Tool) (s : State) :
    (modTool h f s).claimMsgs = s.claimMsgs := rfl
@[simp] theorem modTool_grants (h : HeadId) (f : Tool → Tool) (s : State) :
    (modTool h f s).grants = s.grants := rfl
@[simp] theorem modTool_inputs (h : HeadId) (f : Tool → Tool) (s : State) :
    (modTool h f s).inputs = s.inputs := rfl

/-! ### modControl -/

@[simp] theorem modControl_pending (f : Control → Control) (s : State) :
    (modControl f s).pending = s.pending := rfl
@[simp] theorem modControl_control (f : Control → Control) (s : State) :
    (modControl f s).control = f s.control := rfl
@[simp] theorem modControl_bus (f : Control → Control) (s : State) : (modControl f s).bus = s.bus := rfl
@[simp] theorem modControl_rewrite (f : Control → Control) (s : State) :
    (modControl f s).rewrite = s.rewrite := rfl
@[simp] theorem modControl_stamp (f : Control → Control) (s : State) :
    (modControl f s).stamp = s.stamp := rfl
@[simp] theorem modControl_choices (f : Control → Control) (s : State) :
    (modControl f s).choices = s.choices := rfl
@[simp] theorem modControl_micros (f : Control → Control) (s : State) :
    (modControl f s).micros = s.micros := rfl
@[simp] theorem modControl_reader (f : Control → Control) (s : State) :
    (modControl f s).reader = s.reader := rfl
@[simp] theorem modControl_heads (f : Control → Control) (s : State) :
    (modControl f s).heads = s.heads := rfl
@[simp] theorem modControl_senses (f : Control → Control) (s : State) :
    (modControl f s).senses = s.senses := rfl
@[simp] theorem modControl_plans (f : Control → Control) (s : State) :
    (modControl f s).plans = s.plans := rfl
@[simp] theorem modControl_tools (f : Control → Control) (s : State) :
    (modControl f s).tools = s.tools := rfl
@[simp] theorem modControl_toolBus (f : Control → Control) (s : State) :
    (modControl f s).toolBus = s.toolBus := rfl
@[simp] theorem modControl_claims (f : Control → Control) (s : State) :
    (modControl f s).claims = s.claims := rfl
@[simp] theorem modControl_claimMsgs (f : Control → Control) (s : State) :
    (modControl f s).claimMsgs = s.claimMsgs := rfl
@[simp] theorem modControl_grants (f : Control → Control) (s : State) :
    (modControl f s).grants = s.grants := rfl
@[simp] theorem modControl_inputs (f : Control → Control) (s : State) :
    (modControl f s).inputs = s.inputs := rfl

/-! ### modReader -/

@[simp] theorem modReader_pending (f : Reader → Reader) (s : State) :
    (modReader f s).pending = s.pending := rfl
@[simp] theorem modReader_control (f : Reader → Reader) (s : State) :
    (modReader f s).control = s.control := rfl
@[simp] theorem modReader_bus (f : Reader → Reader) (s : State) : (modReader f s).bus = s.bus := rfl
@[simp] theorem modReader_rewrite (f : Reader → Reader) (s : State) :
    (modReader f s).rewrite = s.rewrite := rfl
@[simp] theorem modReader_stamp (f : Reader → Reader) (s : State) : (modReader f s).stamp = s.stamp := rfl
@[simp] theorem modReader_choices (f : Reader → Reader) (s : State) :
    (modReader f s).choices = s.choices := rfl
@[simp] theorem modReader_micros (f : Reader → Reader) (s : State) :
    (modReader f s).micros = s.micros := rfl
@[simp] theorem modReader_reader (f : Reader → Reader) (s : State) :
    (modReader f s).reader = f s.reader := rfl
@[simp] theorem modReader_heads (f : Reader → Reader) (s : State) : (modReader f s).heads = s.heads := rfl
@[simp] theorem modReader_senses (f : Reader → Reader) (s : State) : (modReader f s).senses = s.senses := rfl
@[simp] theorem modReader_plans (f : Reader → Reader) (s : State) : (modReader f s).plans = s.plans := rfl
@[simp] theorem modReader_tools (f : Reader → Reader) (s : State) : (modReader f s).tools = s.tools := rfl
@[simp] theorem modReader_toolBus (f : Reader → Reader) (s : State) :
    (modReader f s).toolBus = s.toolBus := rfl
@[simp] theorem modReader_claims (f : Reader → Reader) (s : State) : (modReader f s).claims = s.claims := rfl
@[simp] theorem modReader_claimMsgs (f : Reader → Reader) (s : State) :
    (modReader f s).claimMsgs = s.claimMsgs := rfl
@[simp] theorem modReader_grants (f : Reader → Reader) (s : State) : (modReader f s).grants = s.grants := rfl
@[simp] theorem modReader_inputs (f : Reader → Reader) (s : State) : (modReader f s).inputs = s.inputs := rfl

/-! ### modInputs -/

@[simp] theorem modInputs_pending (f : Inputs → Inputs) (s : State) :
    (modInputs f s).pending = s.pending := rfl
@[simp] theorem modInputs_control (f : Inputs → Inputs) (s : State) :
    (modInputs f s).control = s.control := rfl
@[simp] theorem modInputs_bus (f : Inputs → Inputs) (s : State) : (modInputs f s).bus = s.bus := rfl
@[simp] theorem modInputs_rewrite (f : Inputs → Inputs) (s : State) :
    (modInputs f s).rewrite = s.rewrite := rfl
@[simp] theorem modInputs_stamp (f : Inputs → Inputs) (s : State) : (modInputs f s).stamp = s.stamp := rfl
@[simp] theorem modInputs_choices (f : Inputs → Inputs) (s : State) :
    (modInputs f s).choices = s.choices := rfl
@[simp] theorem modInputs_micros (f : Inputs → Inputs) (s : State) :
    (modInputs f s).micros = s.micros := rfl
@[simp] theorem modInputs_reader (f : Inputs → Inputs) (s : State) : (modInputs f s).reader = s.reader := rfl
@[simp] theorem modInputs_heads (f : Inputs → Inputs) (s : State) : (modInputs f s).heads = s.heads := rfl
@[simp] theorem modInputs_senses (f : Inputs → Inputs) (s : State) : (modInputs f s).senses = s.senses := rfl
@[simp] theorem modInputs_plans (f : Inputs → Inputs) (s : State) : (modInputs f s).plans = s.plans := rfl
@[simp] theorem modInputs_tools (f : Inputs → Inputs) (s : State) : (modInputs f s).tools = s.tools := rfl
@[simp] theorem modInputs_toolBus (f : Inputs → Inputs) (s : State) :
    (modInputs f s).toolBus = s.toolBus := rfl
@[simp] theorem modInputs_claims (f : Inputs → Inputs) (s : State) : (modInputs f s).claims = s.claims := rfl
@[simp] theorem modInputs_claimMsgs (f : Inputs → Inputs) (s : State) :
    (modInputs f s).claimMsgs = s.claimMsgs := rfl
@[simp] theorem modInputs_grants (f : Inputs → Inputs) (s : State) : (modInputs f s).grants = s.grants := rfl
@[simp] theorem modInputs_inputs (f : Inputs → Inputs) (s : State) :
    (modInputs f s).inputs = f s.inputs := rfl

/-! ### raise -/

@[simp] theorem raise_pending (e : Event) (s : State) : (raise e s).pending = s.pending := rfl
@[simp] theorem raise_control (e : Event) (s : State) : (raise e s).control = s.control.raise e := rfl
@[simp] theorem raise_bus (e : Event) (s : State) : (raise e s).bus = s.bus := rfl
@[simp] theorem raise_rewrite (e : Event) (s : State) : (raise e s).rewrite = s.rewrite := rfl
@[simp] theorem raise_stamp (e : Event) (s : State) : (raise e s).stamp = s.stamp := rfl
@[simp] theorem raise_choices (e : Event) (s : State) : (raise e s).choices = s.choices := rfl
@[simp] theorem raise_micros (e : Event) (s : State) : (raise e s).micros = s.micros := rfl
@[simp] theorem raise_reader (e : Event) (s : State) : (raise e s).reader = s.reader := rfl
@[simp] theorem raise_heads (e : Event) (s : State) : (raise e s).heads = s.heads := rfl
@[simp] theorem raise_senses (e : Event) (s : State) : (raise e s).senses = s.senses := rfl
@[simp] theorem raise_plans (e : Event) (s : State) : (raise e s).plans = s.plans := rfl
@[simp] theorem raise_tools (e : Event) (s : State) : (raise e s).tools = s.tools := rfl
@[simp] theorem raise_toolBus (e : Event) (s : State) : (raise e s).toolBus = s.toolBus := rfl
@[simp] theorem raise_claims (e : Event) (s : State) : (raise e s).claims = s.claims := rfl
@[simp] theorem raise_claimMsgs (e : Event) (s : State) : (raise e s).claimMsgs = s.claimMsgs := rfl
@[simp] theorem raise_grants (e : Event) (s : State) : (raise e s).grants = s.grants := rfl
@[simp] theorem raise_inputs (e : Event) (s : State) : (raise e s).inputs = s.inputs := rfl

/-! ### setRefusal -/

@[simp] theorem setRefusal_pending (c : RefusalCode) (s : State) :
    (setRefusal c s).pending = s.pending := rfl
@[simp] theorem setRefusal_control (c : RefusalCode) (s : State) :
    (setRefusal c s).control = { s.control with lastRefusal := c } := rfl
@[simp] theorem setRefusal_bus (c : RefusalCode) (s : State) : (setRefusal c s).bus = s.bus := rfl
@[simp] theorem setRefusal_rewrite (c : RefusalCode) (s : State) :
    (setRefusal c s).rewrite = s.rewrite := rfl
@[simp] theorem setRefusal_stamp (c : RefusalCode) (s : State) : (setRefusal c s).stamp = s.stamp := rfl
@[simp] theorem setRefusal_choices (c : RefusalCode) (s : State) :
    (setRefusal c s).choices = s.choices := rfl
@[simp] theorem setRefusal_micros (c : RefusalCode) (s : State) :
    (setRefusal c s).micros = s.micros := rfl
@[simp] theorem setRefusal_reader (c : RefusalCode) (s : State) : (setRefusal c s).reader = s.reader := rfl
@[simp] theorem setRefusal_heads (c : RefusalCode) (s : State) : (setRefusal c s).heads = s.heads := rfl
@[simp] theorem setRefusal_senses (c : RefusalCode) (s : State) : (setRefusal c s).senses = s.senses := rfl
@[simp] theorem setRefusal_plans (c : RefusalCode) (s : State) : (setRefusal c s).plans = s.plans := rfl
@[simp] theorem setRefusal_tools (c : RefusalCode) (s : State) : (setRefusal c s).tools = s.tools := rfl
@[simp] theorem setRefusal_toolBus (c : RefusalCode) (s : State) :
    (setRefusal c s).toolBus = s.toolBus := rfl
@[simp] theorem setRefusal_claims (c : RefusalCode) (s : State) : (setRefusal c s).claims = s.claims := rfl
@[simp] theorem setRefusal_claimMsgs (c : RefusalCode) (s : State) :
    (setRefusal c s).claimMsgs = s.claimMsgs := rfl
@[simp] theorem setRefusal_grants (c : RefusalCode) (s : State) : (setRefusal c s).grants = s.grants := rfl
@[simp] theorem setRefusal_inputs (c : RefusalCode) (s : State) : (setRefusal c s).inputs = s.inputs := rfl

/-! ### sendClaim -/

@[simp] theorem sendClaim_pending (h : HeadId) (m : ClaimMsg) (s : State) :
    (sendClaim h m s).pending = s.pending := rfl
@[simp] theorem sendClaim_control (h : HeadId) (m : ClaimMsg) (s : State) :
    (sendClaim h m s).control = s.control := rfl
@[simp] theorem sendClaim_bus (h : HeadId) (m : ClaimMsg) (s : State) : (sendClaim h m s).bus = s.bus := rfl
@[simp] theorem sendClaim_rewrite (h : HeadId) (m : ClaimMsg) (s : State) :
    (sendClaim h m s).rewrite = s.rewrite := rfl
@[simp] theorem sendClaim_stamp (h : HeadId) (m : ClaimMsg) (s : State) :
    (sendClaim h m s).stamp = s.stamp := rfl
@[simp] theorem sendClaim_choices (h : HeadId) (m : ClaimMsg) (s : State) :
    (sendClaim h m s).choices = s.choices := rfl
@[simp] theorem sendClaim_micros (h : HeadId) (m : ClaimMsg) (s : State) :
    (sendClaim h m s).micros = s.micros := rfl
@[simp] theorem sendClaim_reader (h : HeadId) (m : ClaimMsg) (s : State) :
    (sendClaim h m s).reader = s.reader := rfl
@[simp] theorem sendClaim_heads (h : HeadId) (m : ClaimMsg) (s : State) :
    (sendClaim h m s).heads = s.heads := rfl
@[simp] theorem sendClaim_senses (h : HeadId) (m : ClaimMsg) (s : State) :
    (sendClaim h m s).senses = s.senses := rfl
@[simp] theorem sendClaim_plans (h : HeadId) (m : ClaimMsg) (s : State) :
    (sendClaim h m s).plans = s.plans := rfl
@[simp] theorem sendClaim_tools (h : HeadId) (m : ClaimMsg) (s : State) :
    (sendClaim h m s).tools = s.tools := rfl
@[simp] theorem sendClaim_toolBus (h : HeadId) (m : ClaimMsg) (s : State) :
    (sendClaim h m s).toolBus = s.toolBus := rfl
@[simp] theorem sendClaim_claims (h : HeadId) (m : ClaimMsg) (s : State) :
    (sendClaim h m s).claims = s.claims := rfl
@[simp] theorem sendClaim_claimMsgs (h : HeadId) (m : ClaimMsg) (s : State) :
    (sendClaim h m s).claimMsgs = s.claimMsgs.set h (s.claimMsgs.get h ++ [m]) := rfl
@[simp] theorem sendClaim_grants (h : HeadId) (m : ClaimMsg) (s : State) :
    (sendClaim h m s).grants = s.grants := rfl
@[simp] theorem sendClaim_inputs (h : HeadId) (m : ClaimMsg) (s : State) :
    (sendClaim h m s).inputs = s.inputs := rfl

/-! ### withPending -/

@[simp] theorem withPending_pending (q : List Instr) (s : State) : (s.withPending q).pending = q := rfl
@[simp] theorem withPending_control (q : List Instr) (s : State) :
    (s.withPending q).control = s.control := rfl
@[simp] theorem withPending_bus (q : List Instr) (s : State) : (s.withPending q).bus = s.bus := rfl
@[simp] theorem withPending_rewrite (q : List Instr) (s : State) :
    (s.withPending q).rewrite = s.rewrite := rfl
@[simp] theorem withPending_stamp (q : List Instr) (s : State) : (s.withPending q).stamp = s.stamp := rfl
@[simp] theorem withPending_choices (q : List Instr) (s : State) :
    (s.withPending q).choices = s.choices := rfl
@[simp] theorem withPending_micros (q : List Instr) (s : State) :
    (s.withPending q).micros = s.micros := rfl
@[simp] theorem withPending_reader (q : List Instr) (s : State) : (s.withPending q).reader = s.reader := rfl
@[simp] theorem withPending_heads (q : List Instr) (s : State) : (s.withPending q).heads = s.heads := rfl
@[simp] theorem withPending_senses (q : List Instr) (s : State) : (s.withPending q).senses = s.senses := rfl
@[simp] theorem withPending_plans (q : List Instr) (s : State) : (s.withPending q).plans = s.plans := rfl
@[simp] theorem withPending_tools (q : List Instr) (s : State) : (s.withPending q).tools = s.tools := rfl
@[simp] theorem withPending_toolBus (q : List Instr) (s : State) :
    (s.withPending q).toolBus = s.toolBus := rfl
@[simp] theorem withPending_claims (q : List Instr) (s : State) : (s.withPending q).claims = s.claims := rfl
@[simp] theorem withPending_claimMsgs (q : List Instr) (s : State) :
    (s.withPending q).claimMsgs = s.claimMsgs := rfl
@[simp] theorem withPending_grants (q : List Instr) (s : State) : (s.withPending q).grants = s.grants := rfl
@[simp] theorem withPending_inputs (q : List Instr) (s : State) : (s.withPending q).inputs = s.inputs := rfl

/-! ### One head after an update -/

@[simp] theorem head_modHead_same (h : HeadId) (f : Head → Head) (s : State) :
    (modHead h f s).head h = f (s.head h) := by
  simp [State.head]
@[simp] theorem head_modHead_other {h k : HeadId} (hk : k ≠ h) (f : Head → Head) (s : State) :
    (modHead h f s).head k = s.head k := by
  simp [State.head, hk]
@[simp] theorem head_modSense (h : HeadId) (f : Sense → Sense) (s : State) (k : HeadId) :
    (modSense h f s).head k = s.head k := rfl
@[simp] theorem head_setPlan (h : HeadId) (p : PlanState) (s : State) (k : HeadId) :
    (setPlan h p s).head k = s.head k := rfl
@[simp] theorem head_modTool (h : HeadId) (f : Tool → Tool) (s : State) (k : HeadId) :
    (modTool h f s).head k = s.head k := rfl
@[simp] theorem head_modControl (f : Control → Control) (s : State) (k : HeadId) :
    (modControl f s).head k = s.head k := rfl
@[simp] theorem head_modReader (f : Reader → Reader) (s : State) (k : HeadId) :
    (modReader f s).head k = s.head k := rfl
@[simp] theorem head_modInputs (f : Inputs → Inputs) (s : State) (k : HeadId) :
    (modInputs f s).head k = s.head k := rfl
@[simp] theorem head_raise (e : Event) (s : State) (k : HeadId) : (raise e s).head k = s.head k := rfl
@[simp] theorem head_setRefusal (c : RefusalCode) (s : State) (k : HeadId) :
    (setRefusal c s).head k = s.head k := rfl
@[simp] theorem head_sendClaim (h : HeadId) (m : ClaimMsg) (s : State) (k : HeadId) :
    (sendClaim h m s).head k = s.head k := rfl
@[simp] theorem head_withPending (q : List Instr) (s : State) (k : HeadId) :
    (s.withPending q).head k = s.head k := rfl

@[simp] theorem sense_modHead (h : HeadId) (f : Head → Head) (s : State) (k : HeadId) :
    (modHead h f s).sense k = s.sense k := rfl
@[simp] theorem sense_modSense_same (h : HeadId) (f : Sense → Sense) (s : State) :
    (modSense h f s).sense h = f (s.sense h) := by
  simp [State.sense]
@[simp] theorem sense_modSense_other {h k : HeadId} (hk : k ≠ h) (f : Sense → Sense) (s : State) :
    (modSense h f s).sense k = s.sense k := by
  simp [State.sense, hk]
@[simp] theorem sense_setPlan (h : HeadId) (p : PlanState) (s : State) (k : HeadId) :
    (setPlan h p s).sense k = s.sense k := rfl
@[simp] theorem sense_modTool (h : HeadId) (f : Tool → Tool) (s : State) (k : HeadId) :
    (modTool h f s).sense k = s.sense k := rfl
@[simp] theorem sense_modControl (f : Control → Control) (s : State) (k : HeadId) :
    (modControl f s).sense k = s.sense k := rfl
@[simp] theorem sense_modReader (f : Reader → Reader) (s : State) (k : HeadId) :
    (modReader f s).sense k = s.sense k := rfl
@[simp] theorem sense_modInputs (f : Inputs → Inputs) (s : State) (k : HeadId) :
    (modInputs f s).sense k = s.sense k := rfl
@[simp] theorem sense_raise (e : Event) (s : State) (k : HeadId) : (raise e s).sense k = s.sense k := rfl
@[simp] theorem sense_setRefusal (c : RefusalCode) (s : State) (k : HeadId) :
    (setRefusal c s).sense k = s.sense k := rfl
@[simp] theorem sense_sendClaim (h : HeadId) (m : ClaimMsg) (s : State) (k : HeadId) :
    (sendClaim h m s).sense k = s.sense k := rfl
@[simp] theorem sense_withPending (q : List Instr) (s : State) (k : HeadId) :
    (s.withPending q).sense k = s.sense k := rfl

@[simp] theorem plan_modHead (h : HeadId) (f : Head → Head) (s : State) (k : HeadId) :
    (modHead h f s).plan k = s.plan k := rfl
@[simp] theorem plan_modSense (h : HeadId) (f : Sense → Sense) (s : State) (k : HeadId) :
    (modSense h f s).plan k = s.plan k := rfl
@[simp] theorem plan_setPlan_same (h : HeadId) (p : PlanState) (s : State) : (setPlan h p s).plan h = p := by
  simp [State.plan]
@[simp] theorem plan_setPlan_other {h k : HeadId} (hk : k ≠ h) (p : PlanState) (s : State) :
    (setPlan h p s).plan k = s.plan k := by
  simp [State.plan, hk]
@[simp] theorem plan_modTool (h : HeadId) (f : Tool → Tool) (s : State) (k : HeadId) :
    (modTool h f s).plan k = s.plan k := rfl
@[simp] theorem plan_modControl (f : Control → Control) (s : State) (k : HeadId) :
    (modControl f s).plan k = s.plan k := rfl
@[simp] theorem plan_modReader (f : Reader → Reader) (s : State) (k : HeadId) :
    (modReader f s).plan k = s.plan k := rfl
@[simp] theorem plan_modInputs (f : Inputs → Inputs) (s : State) (k : HeadId) :
    (modInputs f s).plan k = s.plan k := rfl
@[simp] theorem plan_raise (e : Event) (s : State) (k : HeadId) : (raise e s).plan k = s.plan k := rfl
@[simp] theorem plan_setRefusal (c : RefusalCode) (s : State) (k : HeadId) :
    (setRefusal c s).plan k = s.plan k := rfl
@[simp] theorem plan_sendClaim (h : HeadId) (m : ClaimMsg) (s : State) (k : HeadId) :
    (sendClaim h m s).plan k = s.plan k := rfl
@[simp] theorem plan_withPending (q : List Instr) (s : State) (k : HeadId) :
    (s.withPending q).plan k = s.plan k := rfl

@[simp] theorem tool_modHead (h : HeadId) (f : Head → Head) (s : State) (k : HeadId) :
    (modHead h f s).tool k = s.tool k := rfl
@[simp] theorem tool_modSense (h : HeadId) (f : Sense → Sense) (s : State) (k : HeadId) :
    (modSense h f s).tool k = s.tool k := rfl
@[simp] theorem tool_setPlan (h : HeadId) (p : PlanState) (s : State) (k : HeadId) :
    (setPlan h p s).tool k = s.tool k := rfl
@[simp] theorem tool_modTool_same (h : HeadId) (f : Tool → Tool) (s : State) :
    (modTool h f s).tool h = f (s.tool h) := by
  simp [State.tool]
@[simp] theorem tool_modTool_other {h k : HeadId} (hk : k ≠ h) (f : Tool → Tool) (s : State) :
    (modTool h f s).tool k = s.tool k := by
  simp [State.tool, hk]
@[simp] theorem tool_modControl (f : Control → Control) (s : State) (k : HeadId) :
    (modControl f s).tool k = s.tool k := rfl
@[simp] theorem tool_modReader (f : Reader → Reader) (s : State) (k : HeadId) :
    (modReader f s).tool k = s.tool k := rfl
@[simp] theorem tool_modInputs (f : Inputs → Inputs) (s : State) (k : HeadId) :
    (modInputs f s).tool k = s.tool k := rfl
@[simp] theorem tool_raise (e : Event) (s : State) (k : HeadId) : (raise e s).tool k = s.tool k := rfl
@[simp] theorem tool_setRefusal (c : RefusalCode) (s : State) (k : HeadId) :
    (setRefusal c s).tool k = s.tool k := rfl
@[simp] theorem tool_sendClaim (h : HeadId) (m : ClaimMsg) (s : State) (k : HeadId) :
    (sendClaim h m s).tool k = s.tool k := rfl
@[simp] theorem tool_withPending (q : List Instr) (s : State) (k : HeadId) :
    (s.withPending q).tool k = s.tool k := rfl

end Sys2Proof.Machine
end

