-- ==== Sys2Proof/Laws/Ops.lean ====
section
/-! SUPPORT. What the shared operations of Ops.lean can do, said once: which parts of State they may touch,
what they leave of run control, and what becomes of the bus. -/

namespace Sys2Proof.Machine

/-! ## The bus and the header -/

/-- `t` is `s` but for the bus and the rewrite marks. -/
def BusTouched (s t : State) : Prop := ∃ b r, t = { s with bus := b, rewrite := r }

theorem BusTouched.rfl {s : State} : BusTouched s s := ⟨s.bus, s.rewrite, Eq.refl s⟩

theorem BusTouched.trans {s t u : State} : BusTouched s t → BusTouched t u → BusTouched s u := by
  rintro ⟨_, _, e⟩ ⟨b, r, e'⟩
  exact ⟨b, r, by rw [e', e]⟩

theorem request_touches (a : Access) (addr : BitVec 64) (len : Nat) (data : List Byte) (s : State) :
    BusTouched s (request a addr len data s) := ⟨_, s.rewrite, rfl⟩

theorem requestRead_touches (a : Access) (offset len : Nat) (s : State) :
    BusTouched s (requestRead a offset len s) := request_touches ..

theorem requestWrite_touches (a : Access) (offset : Nat) (data : List Byte) (s : State) :
    BusTouched s (requestWrite a offset data s) := request_touches ..

theorem dropRequests_touches (mine : Access → Bool) (s : State) :
    BusTouched s (dropRequests mine s) := ⟨_, s.rewrite, rfl⟩

theorem requestPart_touches (p : HeaderPart) (s : State) : BusTouched s (requestPart p s) := by
  unfold requestPart
  split
  · exact .rfl
  · split
    · exact requestWrite_touches ..
    · split
      · exact ⟨s.bus, _, rfl⟩
      · exact .rfl

/-- A request joins the list at its end, live and not granted. -/
theorem request_bus (a : Access) (addr : BitVec 64) (len : Nat) (data : List Byte) (s : State) :
    (request a addr len data s).bus = s.bus ++
      [{ access := a, addr := addr, len := len, data := data, granted := false, fate := .live,
         age := s.stamp }] := rfl

/-- A read asked for is at the bus. -/
theorem reads_requestRead (a : Access) (offset len : Nat) (s : State) :
    reads a offset len (requestRead a offset len s) :=
  ⟨_, List.mem_append_right _ (List.mem_singleton.mpr rfl), rfl, rfl, rfl, rfl⟩

/-- A write asked for is at the bus. -/
theorem writes_requestWrite (a : Access) (offset : Nat) (data : List Byte) (s : State) :
    writes a offset data (requestWrite a offset data s) :=
  ⟨_, List.mem_append_right _ (List.mem_singleton.mpr rfl), rfl, rfl, rfl, rfl⟩

/-! ## Granting and the end of a command -/

/-- Granting keeps what identifies the request. -/
@[simp] theorem grantOf_key (s : State) (r : BusReq) : (s.grantOf r).key = r.key := by
  unfold State.grantOf
  split <;> rfl

/-- A granted request is granted. -/
@[simp] theorem grantOf_granted (s : State) (r : BusReq) : (s.grantOf r).granted = true := by
  unfold State.grantOf
  split <;> rfl

theorem grantAt_eq (s : State) (i : Nat) : ∃ b, s.grantAt i = { s with bus := b } := by
  unfold State.grantAt
  split
  · exact ⟨s.bus, rfl⟩
  · exact ⟨_, rfl⟩

/-- Granting moves one request to the front and changes no key. -/
theorem grantAt_keys (s : State) (i : Nat) :
    ((s.grantAt i).bus.map BusReq.key).Perm (s.bus.map BusReq.key) := by
  unfold State.grantAt
  split
  · exact .refl _
  · next r hr =>
    obtain ⟨hi, rfl⟩ := List.getElem?_eq_some_iff.mp hr
    simpa using (List.getElem_cons_eraseIdx_perm hi).map BusReq.key

/-- Granting touches the bus and the count of free choices. -/
theorem grantNext_eq (s : State) : ∃ b c, grantNext s = { s with bus := b, choices := c } := by
  unfold grantNext
  split
  · exact ⟨s.bus, s.choices, rfl⟩
  · split
    · exact ⟨s.bus, s.choices, rfl⟩
    · split
      · exact ⟨s.bus, s.choices, rfl⟩
      · next i _ =>
        obtain ⟨b, e⟩ := grantAt_eq s i
        exact ⟨b, s.choices, e⟩
      · next i j more _ =>
        obtain ⟨b, e⟩ := grantAt_eq s ((i :: j :: more).getD (Config.freeChoice s.choices %
          (i :: j :: more).length) i)
        exact ⟨b, s.choices + 1, by simp only [e]⟩

/-- The requests at the bus stay the same when one is granted. -/
theorem grantNext_keys (s : State) :
    ((grantNext s).bus.map BusReq.key).Perm (s.bus.map BusReq.key) := by
  unfold grantNext
  split
  · exact .refl _
  · split
    · exact .refl _
    · split
      · exact .refl _
      · exact grantAt_keys s _
      · exact grantAt_keys s _

/-- The end of a command answers a next state that differs from the one given in the bus, the stamp and the
count of free choices. -/
theorem finish_spec (s : State) :
    ∃ b c, finish s = .next { s with bus := b, choices := c, stamp := s.stamp + 1 } ∧
      (b.map BusReq.key).Perm (s.bus.map BusReq.key) := by
  obtain ⟨b, c, e⟩ := grantNext_eq s
  have k := grantNext_keys s
  rw [e] at k
  exact ⟨b, c, by rw [finish, e], k⟩

/-! ## Run control and what is shown -/

/-- A rise of the interrupt condition changes the message count and nothing else. -/
theorem noteRise_eq (before after : Control) :
    ∃ n, Control.noteRise before after = { after with msiSent := n } := by
  unfold Control.noteRise
  split
  · exact ⟨_, rfl⟩
  · exact ⟨after.msiSent, rfl⟩

/-- An event sets its flag; the message count may rise; nothing else of run control changes. -/
theorem control_raise (c : Control) (e : Event) :
    ∃ n, c.raise e = { c with evt := c.evt ||| e.mask, msiSent := n } := by
  obtain ⟨n, h⟩ := noteRise_eq c { c with evt := c.evt ||| e.mask }
  exact ⟨n, h⟩

/-- An event raised stands set. -/
theorem flagged_raise (e : Event) (s : State) : flagged e (raise e s) := by
  obtain ⟨n, h⟩ := control_raise s.control e
  simp only [flagged, raise, h]
  ext i
  simpa using .inr

/-- A flag that stands stays set when another event is raised. -/
theorem flagged_raise_of (e d : Event) {s : State} (hf : flagged e s) : flagged e (raise d s) := by
  obtain ⟨n, h⟩ := control_raise s.control d
  simp only [flagged, raise, h] at *
  rw [BitVec.and_comm] at hf ⊢
  rw [BitVec.and_or_distrib_left, hf]
  ext i
  simpa using fun e _ => e

/-- `t` is `s` but for run control, the bus and the rewrite marks. -/
def ControlTouched (s t : State) : Prop := ∃ c b r, t = { s with control := c, bus := b, rewrite := r }

theorem ControlTouched.rfl {s : State} : ControlTouched s s := ⟨s.control, s.bus, s.rewrite, Eq.refl s⟩

theorem ControlTouched.trans {s t u : State} :
    ControlTouched s t → ControlTouched t u → ControlTouched s u := by
  rintro ⟨_, _, _, e⟩ ⟨c, b, r, e'⟩
  exact ⟨c, b, r, by rw [e', e]⟩

theorem BusTouched.control {s t : State} : BusTouched s t → ControlTouched s t := by
  rintro ⟨b, r, e⟩
  exact ⟨s.control, b, r, e⟩

theorem modControl_touches (f : Control → Control) (s : State) : ControlTouched s (modControl f s) :=
  ⟨_, s.bus, s.rewrite, rfl⟩

theorem raise_touches (e : Event) (s : State) : ControlTouched s (raise e s) := ⟨_, s.bus, s.rewrite, rfl⟩

/-- A change of device state touches run control, the bus and the rewrite marks. -/
theorem setDevice_touches (d : DeviceState) (s : State) : ControlTouched s (setDevice d s) := by
  unfold setDevice
  split
  · exact .rfl
  · exact ((modControl_touches _ s).trans (raise_touches ..)).trans (requestPart_touches ..).control

/-- The device state afterwards is the one set. -/
@[simp] theorem setDevice_device (d : DeviceState) (s : State) : (setDevice d s).control.device = d := by
  unfold setDevice
  split
  · assumption
  · obtain ⟨b, r, e⟩ := requestPart_touches .device (raise .runst (modControl (fun c => { c with device := d }) s))
    obtain ⟨n, h⟩ := control_raise ({ s.control with device := d }) .runst
    rw [e]
    simp [h]

/-- A change of device state raises RUNST. -/
theorem setDevice_runst {d : DeviceState} {s : State} (hd : s.control.device ≠ d) :
    flagged .runst (setDevice d s) := by
  obtain ⟨b, r, e⟩ := requestPart_touches .device (raise .runst (modControl (fun c => { c with device := d }) s))
  rw [setDevice, if_neg hd, e]
  exact flagged_raise ..

/-- A change of the chain reader touches it, the bus and the rewrite marks. -/
theorem changeReader_eq (f : Reader → Reader) (s : State) :
    ∃ b r, changeReader f s = { s with reader := f s.reader, bus := b, rewrite := r } := by
  obtain ⟨b, r, e⟩ := requestPart_touches .chain (modReader f s)
  exact ⟨b, r, e⟩

/-- A head's state put touches that head's sequencer, the bus and the rewrite marks. -/
theorem putState_eq (st : HeadState) (h : HeadId) (s : State) :
    ∃ b r, putState st h s =
      { s with
        heads := s.heads.set h { s.heads.get h with state := st }, bus := b, rewrite := r } := by
  unfold putState
  split
  · next e =>
    refine ⟨s.bus, s.rewrite, ?_⟩
    have : ({ s.heads.get h with state := st } : Head) = s.heads.get h := by
      rw [← e]; rfl
    rw [this, Four.set_get]
  · obtain ⟨b, r, e⟩ := requestPart_touches (.live h) (modHead h (fun x => { x with state := st }) s)
    exact ⟨b, r, e⟩

/-- A halt reason put touches that head's sequencer, the bus and the rewrite marks. -/
theorem putHaltReason_eq (why : Reason) (h : HeadId) (s : State) :
    ∃ b r, putHaltReason why h s =
      { s with
        heads := s.heads.set h { s.heads.get h with lastHalt := why }, bus := b, rewrite := r } := by
  unfold putHaltReason
  split
  · next e =>
    refine ⟨s.bus, s.rewrite, ?_⟩
    have : ({ s.heads.get h with lastHalt := why } : Head) = s.heads.get h := by
      rw [← e]; rfl
    rw [this, Four.set_get]
  · obtain ⟨b, r, e⟩ := requestPart_touches (.live h) (modHead h (fun x => { x with lastHalt := why }) s)
    exact ⟨b, r, e⟩

/-! ## Completions -/

/-- The access in flight is live and for `a`: it leaves the bus, and the rule goes on. -/
theorem onComplete_inFlight {a : Access} {s : State} (k : State → State) {r : BusReq} {rest : List BusReq}
    (hb : s.bus = r :: rest) (hg : r.granted = true) (hl : r.fate = .live) (ha : r.access = a) :
    onComplete a k s = k { s with bus := rest } := by
  simp [onComplete, hb, hg, hl, ha]

/-- A completion does nothing, frees the bus, or goes on with it freed. -/
theorem onComplete_cases (a : Access) (k : State → State) (s : State) :
    onComplete a k s = s ∨
      ∃ r rest, s.bus = r :: rest ∧ r.granted = true ∧ r.access = a ∧
        (onComplete a k s = { s with bus := rest } ∨
          r.fate = .live ∧ onComplete a k s = k { s with bus := rest }) := by
  unfold onComplete
  split
  · exact .inl rfl
  · next r rest hb =>
    split
    · next hc =>
      simp only [Bool.and_eq_true, decide_eq_true_eq] at hc
      refine .inr ⟨r, rest, hb, hc.1, hc.2, ?_⟩
      split
      · next hl => exact .inr ⟨hl, rfl⟩
      · exact .inl rfl
    · exact .inl rfl

/-! ## Heads in turn -/

/-- What every single operation keeps, an operation on a list of heads keeps. -/
theorem eachHead_keeps {P : State → Prop} {f : HeadId → State → State}
    (hf : ∀ h s, P s → P (f h s)) : ∀ (hs : List HeadId) (s : State), P s → P (eachHead f hs s)
  | [], _, p => p
  | h :: hs, s, p => eachHead_keeps hf hs (f h s) (hf h s p)

/-- A relation that every single operation bears to its state, the whole bears. -/
theorem eachHead_relates {R : State → State → Prop} (refl : ∀ s, R s s)
    (trans : ∀ s t u, R s t → R t u → R s u) {f : HeadId → State → State} (hf : ∀ h s, R s (f h s)) :
    ∀ (hs : List HeadId) (s : State), R s (eachHead f hs s)
  | [], s => refl s
  | h :: hs, s => trans s (f h s) _ (hf h s) (eachHead_relates refl trans hf hs (f h s))

/-- Sequencers changed head by head, with the same change for each head: those of the list are changed, in
a list without repetition. -/
theorem eachHead_modHead (g : HeadId → Head → Head) :
    ∀ (hs : List HeadId) (s : State), hs.Nodup → ∀ k,
      (eachHead (fun h => modHead h (g h)) hs s).head k = if k ∈ hs then g k (s.head k) else s.head k
  | [], s, _, k => by simp [eachHead]
  | h :: hs, s, nd, k => by
    obtain ⟨nh, nd⟩ := List.nodup_cons.mp nd
    rw [eachHead, eachHead_modHead g hs _ nd k]
    by_cases e : k = h
    · subst e; simp [nh]
    · simp [e]

/-- Front-ends changed head by head. -/
theorem eachHead_modSense (g : HeadId → Sense → Sense) :
    ∀ (hs : List HeadId) (s : State), hs.Nodup → ∀ k,
      (eachHead (fun h => modSense h (g h)) hs s).sense k = if k ∈ hs then g k (s.sense k) else s.sense k
  | [], s, _, k => by simp [eachHead]
  | h :: hs, s, nd, k => by
    obtain ⟨nh, nd⟩ := List.nodup_cons.mp nd
    rw [eachHead, eachHead_modSense g hs _ nd k]
    by_cases e : k = h
    · subst e; simp [nh]
    · simp [e]

/-- The heads of a unit are a list without repetition. -/
theorem unit_nodup (s : State) (h : HeadId) : (s.unit h).Nodup := by
  unfold State.unit
  split
  · simp [Ne.symm (HeadId.companion_ne_primary h)]
  · simp

/-- A head outside a gang is its own unit. -/
theorem unit_single {s : State} {h : HeadId} (g : (s.head h).gang = false) : s.unit h = [h] := by
  simp [State.unit, g]

/-- A head outside a gang leads itself. -/
theorem lead_single {s : State} {h : HeadId} (g : (s.head h).gang = false) : s.lead h = h := by
  simp [State.lead, g]

/-- Unit and lead depend on the gang mark alone. -/
theorem unit_congr {s t : State} {h : HeadId} (g : (t.head h).gang = (s.head h).gang) :
    t.unit h = s.unit h := by
  simp [State.unit, g]

theorem lead_congr {s t : State} {h : HeadId} (g : (t.head h).gang = (s.head h).gang) :
    t.lead h = s.lead h := by
  simp [State.lead, g]

end Sys2Proof.Machine
end

