-- ==== Sys2Proof/Laws/Clock.lean ====
section
/-! SUPPORT. What the block does of itself can touch: a period of the filter clock the front-ends' filters, the
queue, the tool bus's idle time and the counts of the clock; a tick also counters, lines and the poll timer. No
debounced level, no head state, no drive and no claim changes. -/

namespace Sys2Proof.Machine

/-! ## The filter clock -/

@[simp] theorem filter_levelA (a b : Bool) (x : Sense) : (x.filter a b).1.levelA = x.levelA := rfl
@[simp] theorem filter_levelB (a b : Bool) (x : Sense) : (x.filter a b).1.levelB = x.levelB := rfl
@[simp] theorem filter_depth (a b : Bool) (x : Sense) : (x.filter a b).1.depth = x.depth := rfl
@[simp] theorem filter_firings (a b : Bool) (x : Sense) : (x.filter a b).1.firings = x.firings := rfl
@[simp] theorem filter_tare (a b : Bool) (x : Sense) : (x.filter a b).1.tare = x.tare := rfl

/-- A sample at the accepted levels accepts nothing and leaves no line marked. -/
theorem filter_settled (x : Sense) :
    x.filter x.levelA x.levelB =
      ({ x with pinA := x.levelA, pinB := x.levelB, seenA := false, seenB := false }, none) := by
  simp [Sense.filter, filterLine, edgeOf]

/-- Filtering every head's lines touches the front-ends alone. -/
theorem filterHeads_eq (free : Nat) (hs : List HeadId) (s : State) :
    ∃ n, eachHead (filterHead free) hs s = { s with senses := n } := by
  refine eachHead_relates (R := fun s t => ∃ n, t = { s with senses := n }) (fun s => ⟨s.senses, rfl⟩)
    ?_ (fun h s => ⟨_, rfl⟩) hs s
  rintro s t u ⟨n, e⟩ ⟨m, e'⟩
  exact ⟨m, by rw [e', e]⟩

theorem filterPeriod_eq (free : Nat) (s : State) :
    ∃ n q, filterPeriod free s = { s with senses := n, toolBus := s.toolBus.idled, pending := q } := by
  obtain ⟨n, e⟩ := filterHeads_eq free HeadId.all s
  exact ⟨n, (HeadId.all.map (s.edgesAt free)).flatten, by rw [filterPeriod, e]⟩

@[simp] theorem idled_transaction (b : ToolBus) : b.idled.transaction = b.transaction := by
  unfold ToolBus.idled
  split <;> rfl

@[simp] theorem idled_lastGranted (b : ToolBus) : b.idled.lastGranted = b.lastGranted := by
  unfold ToolBus.idled
  split <;> rfl

@[simp] theorem idled_idleNeeded (b : ToolBus) : b.idled.idleNeeded = b.idleNeeded := by
  unfold ToolBus.idled
  split <;> rfl

/-- A free line's idle time grows by one microsecond a period, up to 2 ms (R100, R103, R105). -/
theorem idled_idle (b : ToolBus) (free : b.transaction = none) : b.idled.idle = min 2000 (b.idle + 1) := by
  simp [ToolBus.idled, free]

/-! ## The tick -/

@[simp] theorem sample_level (l : Line) (raw : Bool) : (l.sample raw).level = l.level := rfl
@[simp] theorem tick_head_state (m : Head) : m.tick.state = m.state := rfl
@[simp] theorem tick_head_gang (m : Head) : m.tick.gang = m.gang := rfl
@[simp] theorem tick_head_current (m : Head) : m.tick.current = m.current := rfl
@[simp] theorem tick_head_setpoint (m : Head) : m.tick.setpoint = m.setpoint := rfl
@[simp] theorem tick_head_direction (m : Head) : m.tick.direction = m.direction := rfl
@[simp] theorem tick_head_brake (m : Head) : m.tick.brake = m.brake := rfl
@[simp] theorem tick_head_atTop (m : Head) : m.tick.atTop = m.atTop := rfl
@[simp] theorem tick_estop_level (free : Nat) (i : Inputs) : (i.tick free).estop.level = i.estop.level := rfl
@[simp] theorem tick_guard_level (free : Nat) (i : Inputs) : (i.tick free).guard.level = i.guard.level := rfl

/-- Two things taken together, read at one head. -/
@[simp] theorem Four.get_zipWith {α β γ : Type} (f : α → β → γ) (v : Four α) (w : Four β) (h : HeadId) :
    (Four.zipWith f v w).get h = f (v.get h) (w.get h) := by
  cases h <;> rfl

theorem tick_eq (free : Nat) (s : State) :
    ∃ q, tick free s = { s with
      heads := s.heads.map Head.tick, reader := s.reader.tick, inputs := s.inputs.tick free,
      pending := q } :=
  ⟨_, rfl⟩

/-- A period of the filter clock with no tick, and one that is a tick too. -/
theorem period_cases (encoders lines : Nat) (s : State) :
    (∃ n q c m, period encoders lines s =
      { s with senses := n, toolBus := s.toolBus.idled, pending := q, choices := c, micros := m }) ∨
    ∃ n q c, period encoders lines s = { s with
      senses := n, toolBus := s.toolBus.idled, pending := q, choices := c, micros := 0,
      heads := s.heads.map Head.tick, reader := s.reader.tick, inputs := s.inputs.tick lines } := by
  obtain ⟨n, q, e⟩ := filterPeriod_eq encoders s
  unfold period
  simp only [e]
  split
  · exact .inl ⟨n, q, _, _, rfl⟩
  · exact .inr ⟨n, _, _, rfl⟩

/-- The block with nothing waiting queues what is due, or lets a period of the filter clock go by. -/
theorem idleStep_cases (s : State) :
    (∃ q, q = s.due ∧ q ≠ [] ∧ idleStep s = { s with pending := q }) ∨
      idleStep s = period (Config.freeChoice s.choices) (Config.freeChoice (s.choices + 1)) s := by
  unfold idleStep
  split
  · exact .inr rfl
  · rename_i i more e
    exact .inl ⟨i :: more, e.symm, List.cons_ne_nil i more, rfl⟩

/-! ## The first samples after a reset -/

/-- Whatever the first samples show, the operator input unit holds what R128, R129 and R132 say. -/
theorem firstSample_firstSampled (free : Nat) : (Inputs.firstSample free).firstSampled := by
  refine ⟨⟨rfl, rfl⟩, ⟨rfl, rfl⟩, ⟨rfl, rfl⟩, ⟨rfl, rfl⟩, fun h => ?_, rfl⟩
  cases h <;> exact ⟨⟨rfl, rfl⟩, ⟨rfl, rfl⟩, ⟨rfl, rfl⟩, rfl, rfl⟩

/-- Every front-end is in its reset state at the levels its own lines were found at. -/
theorem firstSenses_get (free : Nat) (h : HeadId) :
    (firstSenses free).get h = Sense.reset ((bitsFrom free 0).get h) ((bitsFrom free 4).get h) := by
  simp [firstSenses]

@[simp] theorem raise_area (e : Event) (s : State) : (raise e s).control.area = s.control.area := by
  simp only [raise, Control.raise, Control.noteRise]
  split <;> rfl

/-- A change of the device state touches run control alone when no taken area is held (R164). -/
theorem setDevice_noArea (d : DeviceState) {s : State} (area : s.control.area = none) :
    ∃ c, setDevice d s = { s with control := c } := by
  unfold setDevice
  split
  · exact ⟨s.control, rfl⟩
  · simp only [requestPart, raise_area, modControl, area]
    exact ⟨_, rfl⟩

/-- With every head OFFLINE and the chain reader STOPPED nothing is there to be stopped. -/
theorem carry_reset (why : Reason) {s : State} (heads : s.heads = Four.all Head.reset)
    (reader : s.reader = Reader.reset) : carry why s = s := by
  have still : ∀ h, (s.head h).state = .offline := fun h => by simp only [State.head, heads]; cases h <;> rfl
  have each : eachLead (stopUnit why) s = s := by
    refine eachHead_keeps (P := fun u => u = s) (fun h u e => ?_) HeadId.all s rfl
    subst e
    split
    · simp [stopUnit, still, HeadState.inMotion, HeadState.beforeStroke]
    · rfl
  rw [carry, each, stopReader, reader]
  rfl

/-- Handing on an ESTOP that finds every head OFFLINE and the chain reader STOPPED, in a device that holds no taken
area, touches run control alone (R137). -/
theorem handOnEstop_reset {t : State} (heads : t.heads = Four.all Head.reset) (reader : t.reader = Reader.reset)
    (area : t.control.area = none) : ∃ c, handOnEstop t = { t with control := c } := by
  have carried : carry .estop (raise .safe t) = raise .safe t := carry_reset .estop heads reader
  obtain ⟨c, e⟩ := setDevice_noArea .estop (s := modControl (fun c => { c with aborting := false }) (raise .safe t))
    ((raise_area .safe t).trans area)
  unfold handOnEstop enterEstop
  simp only [carried]
  cases (raise .safe t).control.device
  case starting => exact ⟨{ (raise .safe t).control with startEstop := true }, rfl⟩
  case estop => exact ⟨(raise .safe t).control, rfl⟩
  all_goals exact ⟨c, e⟩

/-- A reset makes run control what it is told, or what an ESTOP found active makes of that; every other block is in
its reset state. -/
theorem resetBlocks_eq (encoders lines : Nat) (control : Control) (s : State) (area : control.area = none) :
    ∃ c, resetBlocks encoders lines control s = { State.reset with
      pending := s.pending, control := c, bus := orphanBus s.bus, stamp := s.stamp, choices := s.choices + 2,
      senses := firstSenses encoders, inputs := Inputs.firstSample lines } := by
  unfold resetBlocks handOnFirst
  split
  · obtain ⟨c, e⟩ := handOnEstop_reset (t := { State.reset with
      pending := s.pending, control := control, bus := orphanBus s.bus, stamp := s.stamp,
      choices := s.choices + 2, senses := firstSenses encoders, inputs := Inputs.firstSample lines })
      rfl rfl area
    exact ⟨c, e⟩
  · exact ⟨control, rfl⟩

/-- What a reset leaves of every block but run control (R178). -/
theorem resetBlocks_reset (encoders lines : Nat) (control : Control) (s : State) (area : control.area = none) :
    blocksReset s (resetBlocks encoders lines control s) := by
  obtain ⟨c, e⟩ := resetBlocks_eq encoders lines control s area
  rw [e]
  refine ⟨rfl, rfl, rfl, rfl, rfl, rfl, rfl, rfl, fun h => ?_, firstSample_firstSampled _, rfl, rfl, rfl⟩
  show (firstSenses _).get h = _
  simp only [State.sense, firstSenses_get]
  rfl

/-! ## A line that a command brings -/

/-- A line whose level a command does not change keeps its samples. -/
@[simp] theorem take_same (l : Line) : l.take l.level = l := by simp [Line.take]

/-- The level afterwards is the one brought. -/
@[simp] theorem take_level (l : Line) (b : Bool) : (l.take b).level = b := by
  unfold Line.take
  split
  · assumption
  · rfl

end Sys2Proof.Machine
end

