-- ==== Sys2Proof/Laws/Stroke.lean ====
section
/-! SUPPORT. What the shared operations of Stroke.lean and Chain.lean may touch: a halt touches sequencers,
front-ends, plans, run control and the bus; the end of an order before its stroke, a rest and a rise touch
also the tools, the messages to the arbiter and the count of free choices; the chain reader's operations touch
the reader, run control and the bus. -/

namespace Sys2Proof.Machine

/-! ## Operations of the press alone -/

/-- `t` is `s` but for sequencers, front-ends, plans, run control, the bus and the rewrite marks. -/
def PressTouched (s t : State) : Prop :=
  ∃ m n p c b r, t =
    { s with heads := m, senses := n, plans := p, control := c, bus := b, rewrite := r }

theorem PressTouched.rfl {s : State} : PressTouched s s :=
  ⟨s.heads, s.senses, s.plans, s.control, s.bus, s.rewrite, Eq.refl s⟩

theorem PressTouched.trans {s t u : State} : PressTouched s t → PressTouched t u → PressTouched s u := by
  rintro ⟨_, _, _, _, _, _, e⟩ ⟨m, n, p, c, b, r, e'⟩
  exact ⟨m, n, p, c, b, r, by rw [e', e]⟩

theorem ControlTouched.press {s t : State} : ControlTouched s t → PressTouched s t := by
  rintro ⟨c, b, r, e⟩
  exact ⟨s.heads, s.senses, s.plans, c, b, r, e⟩

theorem BusTouched.press {s t : State} (h : BusTouched s t) : PressTouched s t := h.control.press

theorem modHead_press (h : HeadId) (f : Head → Head) (s : State) : PressTouched s (modHead h f s) :=
  ⟨_, s.senses, s.plans, s.control, s.bus, s.rewrite, rfl⟩

theorem modSense_press (h : HeadId) (f : Sense → Sense) (s : State) : PressTouched s (modSense h f s) :=
  ⟨s.heads, _, s.plans, s.control, s.bus, s.rewrite, rfl⟩

theorem setPlan_press (h : HeadId) (p : PlanState) (s : State) : PressTouched s (setPlan h p s) :=
  ⟨s.heads, s.senses, _, s.control, s.bus, s.rewrite, rfl⟩

theorem putState_press (st : HeadState) (h : HeadId) (s : State) : PressTouched s (putState st h s) := by
  obtain ⟨b, r, e⟩ := putState_eq st h s
  exact ⟨_, s.senses, s.plans, s.control, b, r, e⟩

theorem putHaltReason_press (why : Reason) (h : HeadId) (s : State) :
    PressTouched s (putHaltReason why h s) := by
  obtain ⟨b, r, e⟩ := putHaltReason_eq why h s
  exact ⟨_, s.senses, s.plans, s.control, b, r, e⟩

theorem eachHead_press {f : HeadId → State → State} (hf : ∀ h s, PressTouched s (f h s))
    (hs : List HeadId) (s : State) : PressTouched s (eachHead f hs s) :=
  eachHead_relates (fun _ => .rfl) (fun _ _ _ => .trans) hf hs s

theorem setDrive_press (d : Drive) (x : HeadId) (s : State) : PressTouched s (setDrive d x s) :=
  eachHead_press (fun h s => modHead_press h _ s) _ s

/-- A change of state of a unit. -/
theorem enterState_press (st : HeadState) (x : HeadId) (s : State) :
    PressTouched s (enterState st x s) :=
  (eachHead_press (putState_press st) _ s).trans (setDrive_press _ x _)

theorem armGuards_press (x : HeadId) (s : State) : PressTouched s (armGuards x s) :=
  eachHead_press (fun h s => modHead_press h _ s) _ s

theorem disarmGuards_press (x : HeadId) (s : State) : PressTouched s (disarmGuards x s) :=
  eachHead_press (fun h s => modHead_press h _ s) _ s

/-! ### The writes that close an order -/

theorem setClosing_press (x : HeadId) (c : Closing) (s : State) : PressTouched s (setClosing x c s) :=
  modHead_press ..

theorem putDone_press (x : HeadId) (c : Closing) (s : State) : PressTouched s (putDone x c s) :=
  (setClosing_press ..).trans (requestWrite_touches ..).press

theorem putFields_press (x : HeadId) (c : Closing) (s : State) : PressTouched s (putFields x c s) :=
  (setClosing_press ..).trans (requestWrite_touches ..).press

theorem putRows_press (x : HeadId) (c : Closing) (s : State) : PressTouched s (putRows x c s) := by
  unfold putRows
  dsimp only
  split
  · exact putFields_press ..
  · exact (setClosing_press ..).trans (requestWrite_touches ..).press

theorem putEntry_press (i : Nat) (x : HeadId) (c : Closing) (s : State) :
    PressTouched s (putEntry i x c s) := by
  unfold putEntry
  split
  · exact putRows_press ..
  · exact (setClosing_press ..).trans (requestWrite_touches ..).press

theorem beginClosing_press (x : HeadId) (c : Closing) (s : State) :
    PressTouched s (beginClosing x c s) := by
  unfold beginClosing
  dsimp only
  split
  · exact (modHead_press ..).trans (putFields_press ..)
  · split
    · exact (modHead_press ..).trans (putEntry_press ..)
    · exact (modHead_press ..).trans (setClosing_press ..)

theorem beginResults_press (x : HeadId) (s : State) : PressTouched s (beginResults x s) := by
  unfold beginResults
  dsimp only
  split
  · exact .rfl
  · exact beginClosing_press ..

theorem closeBefore_press (outcome : OrderOutcome) (reason : Reason) (x : HeadId) (s : State) :
    PressTouched s (closeBefore outcome reason x s) := by
  unfold closeBefore
  dsimp only
  split
  · exact .rfl
  · split
    · exact .rfl
    · exact beginClosing_press ..

/-! ### Halts -/

theorem haltHead_press (why : Reason) (h : HeadId) (s : State) : PressTouched s (haltHead why h s) :=
  (((putHaltReason_press why h s).trans (putState_press ..)).trans (modHead_press ..)).trans
    (modSense_press ..)

theorem haltPlan_press (why : Reason) (x : HeadId) (s : State) : PressTouched s (haltPlan why x s) := by
  unfold haltPlan
  split
  · split
    · exact .rfl
    · exact (setPlan_press ..).trans (modHead_press ..)
    · exact (setPlan_press ..).trans (modHead_press ..)
  · exact .rfl
  · exact .rfl

theorem haltContact_press (x : HeadId) (s : State) : PressTouched s (haltContact x s) := by
  unfold haltContact
  split
  · exact modSense_press ..
  · exact .rfl

theorem dropCurrent_press (x : HeadId) (s : State) : PressTouched s (dropCurrent x s) :=
  eachHead_press (fun h s => modHead_press h _ s) _ s

theorem haltOutcome_press (why : Reason) (x : HeadId) (s : State) :
    PressTouched s (haltOutcome why x s) := by
  unfold haltOutcome
  dsimp only
  split
  · exact .rfl
  · split
    · exact .rfl
    · split
      · exact beginClosing_press ..
      · split
        · exact .rfl
        · exact dropCurrent_press ..

/-- A halt touches neither tools nor claims, neither the chain reader nor the operator's lines. -/
theorem haltUnit_press (why : Reason) (x : HeadId) (s : State) : PressTouched s (haltUnit why x s) :=
  ((((haltContact_press x s).trans (haltPlan_press ..)).trans
    (eachHead_press (haltHead_press why) _ _)).trans (raise_touches ..).press).trans
    (haltOutcome_press ..)

theorem haltIn_press (inStates : HeadState → Bool) (why : Reason) (x : HeadId) (s : State) :
    PressTouched s (haltIn inStates why x s) := by
  unfold haltIn
  split
  · exact haltUnit_press ..
  · exact .rfl

/-! ## Operations of a unit -/

/-- `t` is `s` but for what a unit may touch: the press, the tools, the messages to the arbiter and the count
of free choices. -/
def UnitTouched (s t : State) : Prop :=
  ∃ u l c, PressTouched { s with tools := u, claimMsgs := l, choices := c } t

theorem PressTouched.unit {s t : State} (h : PressTouched s t) : UnitTouched s t :=
  ⟨s.tools, s.claimMsgs, s.choices, h⟩

theorem UnitTouched.rfl {s : State} : UnitTouched s s := PressTouched.rfl.unit

theorem UnitTouched.trans {s t u : State} : UnitTouched s t → UnitTouched t u → UnitTouched s u := by
  rintro ⟨_, _, _, _, _, _, _, _, _, e⟩ ⟨a, l, c, m, n, p, k, b, r, e'⟩
  exact ⟨a, l, c, m, n, p, k, b, r, by rw [e', e]⟩

theorem modTool_unit (h : HeadId) (f : Tool → Tool) (s : State) : UnitTouched s (modTool h f s) :=
  ⟨_, s.claimMsgs, s.choices, .rfl⟩

theorem sendClaim_unit (h : HeadId) (m : ClaimMsg) (s : State) : UnitTouched s (sendClaim h m s) :=
  ⟨s.tools, _, s.choices, .rfl⟩

theorem eachHead_unit {f : HeadId → State → State} (hf : ∀ h s, UnitTouched s (f h s))
    (hs : List HeadId) (s : State) : UnitTouched s (eachHead f hs s) :=
  eachHead_relates (fun _ => .rfl) (fun _ _ _ => .trans) hf hs s

theorem restHead_press (st : HeadState) (h : HeadId) (s : State) : PressTouched s (restHead st h s) :=
  ((setPlan_press h .empty s).trans (putState_press ..)).trans (modHead_press ..)

theorem goRest_press (st : HeadId → HeadState) (x : HeadId) (s : State) : PressTouched s (goRest st x s) :=
  (dropRequests_touches _ s).press.trans (eachHead_press (fun h s => restHead_press (st h) h s) _ _)

theorem letGo_unit (x : HeadId) (s : State) : UnitTouched s (letGo x s) := by
  unfold letGo
  split
  · exact .rfl
  · exact (modHead_press ..).unit.trans (sendClaim_unit ..)
  · exact (modHead_press ..).unit.trans (sendClaim_unit ..)

theorem changeTool_unit (h : HeadId) (f : Tool → Tool) (s : State) : UnitTouched s (changeTool h f s) := by
  unfold changeTool
  dsimp only
  refine (modTool_unit h (fun _ => f (s.tool h)) s).trans ?_
  split
  · exact ((raise_touches ..).press.trans (requestPart_touches ..).press).unit
  · exact .rfl

theorem countStroke_unit (h : HeadId) (s : State) : UnitTouched s (countStroke h s) :=
  (modSense_press ..).unit.trans (changeTool_unit ..)

theorem finishTop_unit (x : HeadId) (s : State) : UnitTouched s (finishTop x s) := by
  unfold finishTop
  dsimp only
  refine (letGo_unit x s).trans (.trans ?_ (goRest_press ..).unit)
  split
  · exact eachHead_unit countStroke_unit ..
  · exact .rfl

theorem holdTop_press (h : HeadId) (s : State) : PressTouched s (holdTop h s) := by
  unfold holdTop
  split
  · exact modHead_press ..
  · exact .rfl

theorem checkTop_unit (x : HeadId) (s : State) : UnitTouched s (checkTop x s) := by
  unfold checkTop
  dsimp only
  split
  · exact (eachHead_press holdTop_press ..).unit.trans (finishTop_unit ..)
  · exact (eachHead_press holdTop_press ..).unit

/-- Entry to RETRACT or RECOVER. -/
theorem rise_unit (st : HeadState) (x : HeadId) (s : State) : UnitTouched s (rise st x s) :=
  (((enterState_press st x s).trans (armGuards_press ..)).trans
    (eachHead_press (fun h s => modHead_press h _ s) _ _)).unit.trans (checkTop_unit ..)

theorem endWork_unit (x : HeadId) (s : State) : UnitTouched s (endWork x s) := by
  unfold endWork
  extract_lets a b c d
  have hb : UnitTouched s b := ((dropRequests_touches (Access.ofPrep x) s).press.trans
    (eachHead_press (fun h s => modSense_press h Sense.abandonTare s) ..)).unit
  have hc : UnitTouched b c := by
    unfold c
    split
    · exact (setPlan_press ..).unit
    · exact .rfl
    · exact .rfl
  exact ((hb.trans hc).trans (letGo_unit ..)).trans (modHead_press ..).unit

/-- The end of an order before its stroke. -/
theorem refuse_unit (outcome : OrderOutcome) (reason : Reason) (x : HeadId) (s : State) :
    UnitTouched s (refuse outcome reason x s) :=
  (endWork_unit x s).trans (closeBefore_press ..).unit

theorem stopBefore_unit (reason : Reason) (st : HeadId → HeadState) (x : HeadId) (s : State) :
    UnitTouched s (stopBefore reason st x s) :=
  ((endWork_unit x s).trans (closeBefore_press ..).unit).trans (goRest_press ..).unit

theorem haltStill_press (h : HeadId) (s : State) : PressTouched s (haltStill h s) :=
  (setPlan_press h .empty s).trans (haltHead_press ..)

theorem haltBefore_unit (x : HeadId) (s : State) : UnitTouched s (haltBefore x s) :=
  (((endWork_unit x s).trans (closeBefore_press ..).unit).trans
    (eachHead_press haltStill_press _ _).unit).trans (raise_touches ..).press.unit

/-! ## Operations of the chain reader -/

/-- `t` is `s` but for the chain reader, run control, the bus and the rewrite marks. -/
def ReaderTouched (s t : State) : Prop :=
  ∃ k c b r, t = { s with reader := k, control := c, bus := b, rewrite := r }

theorem ReaderTouched.rfl {s : State} : ReaderTouched s s :=
  ⟨s.reader, s.control, s.bus, s.rewrite, Eq.refl s⟩

theorem ReaderTouched.trans {s t u : State} : ReaderTouched s t → ReaderTouched t u → ReaderTouched s u := by
  rintro ⟨_, _, _, _, e⟩ ⟨k, c, b, r, e'⟩
  exact ⟨k, c, b, r, by rw [e', e]⟩

theorem ControlTouched.reader {s t : State} : ControlTouched s t → ReaderTouched s t := by
  rintro ⟨c, b, r, e⟩
  exact ⟨s.reader, c, b, r, e⟩

theorem BusTouched.reader {s t : State} (h : BusTouched s t) : ReaderTouched s t := h.control.reader

theorem modReader_touches (f : Reader → Reader) (s : State) : ReaderTouched s (modReader f s) :=
  ⟨_, s.control, s.bus, s.rewrite, rfl⟩

theorem changeReader_touches (f : Reader → Reader) (s : State) : ReaderTouched s (changeReader f s) :=
  (modReader_touches f s).trans (requestPart_touches ..).reader

theorem requestLink_touches (s : State) : ReaderTouched s (requestLink s) :=
  (modReader_touches _ s).trans (requestRead_touches ..).reader

theorem readerFault_touches (why : ChainFault) (s : State) : ReaderTouched s (readerFault why s) :=
  (changeReader_touches _ s).trans (raise_touches ..).reader

theorem stopAdvance_touches (s : State) : ReaderTouched s (stopAdvance s) := by
  unfold stopAdvance
  split
  · split
    · exact (modReader_touches ..).trans (requestWrite_touches ..).reader
    · exact changeReader_touches ..
  · exact .rfl

theorem dispose_touches (record : Nat) (s : State) : ReaderTouched s (dispose record s) := by
  unfold dispose
  dsimp only
  split
  · exact (changeReader_touches ..).trans (requestLink_touches ..)
  · exact (changeReader_touches ..).trans (stopAdvance_touches ..)

theorem rejectOrder_touches (record : Nat) (outcome : OrderOutcome) (reason : Reason) (s : State) :
    ReaderTouched s (rejectOrder record outcome reason s) :=
  (modReader_touches _ s).trans (requestWrite_touches ..).reader

theorem takeNow_touches (o : Order) (s : State) : ReaderTouched s (takeNow o s) :=
  (modReader_touches _ s).trans (requestWrite_touches ..).reader

theorem takeOrHold_touches (o : Order) (s : State) : ReaderTouched s (takeOrHold o s) := by
  unfold takeOrHold
  split
  · exact takeNow_touches ..
  · exact changeReader_touches ..

theorem leaveHeld_touches (s : State) : ReaderTouched s (leaveHeld s) := by
  unfold leaveHeld
  split
  · split
    · exact (changeReader_touches ..).trans (requestRead_touches ..).reader
    · exact .rfl
  · exact .rfl

theorem recordOutcome_touches (o : Order) (s : State) : ReaderTouched s (recordOutcome o s) :=
  ((changeReader_touches _ s).trans (raise_touches ..).reader).trans (leaveHeld_touches ..)

theorem readerStop_touches (why : Reason) (s : State) : ReaderTouched s (readerStop why s) :=
  ((dropRequests_touches Access.readerRead s).reader.trans (changeReader_touches ..)).trans
    (stopAdvance_touches ..)

theorem stopReader_touches (why : Reason) (s : State) : ReaderTouched s (stopReader why s) := by
  unfold stopReader
  split
  · exact .rfl
  · exact readerStop_touches ..

end Sys2Proof.Machine
end

