-- ==== Sys2Proof/Laws/Zones.lean ====
section
/-! SUPPORT. What the zone arbiter's operations can do: they touch the claim table and the grants alone, and
an interval is free when no HELD entry shares a coordinate with it. -/

namespace Sys2Proof.Machine

/-- Sharing a coordinate is mutual. -/
theorem overlap_comm (l1 h1 l2 h2 : Nat) : overlap l1 h1 l2 h2 = overlap l2 h2 l1 h1 := by
  simp [overlap, Bool.and_comm]

/-- An interval is free when it overlaps no HELD entry. -/
theorem free_iff (t : Four Claim) (low high : Nat) :
    free t low high = true ↔ ∀ k l u, t.get k = .held l u → overlap low high l u = false := by
  simp only [free, List.all_eq_true, HeadId.mem_all, forall_const, Bool.not_eq_true']
  constructor
  · intro f k l u e
    simpa [Claim.blocks, e] using f k
  · intro f k
    cases e : t.get k with
    | held l u => simpa [Claim.blocks] using f k l u e
    | empty => rfl
    | waiting l u a => rfl

theorem grantClaim_eq (w : Waiter) (s : State) :
    grantClaim w s = { s with
      claims := s.claims.set w.head (.held w.low w.high), grants := s.grants.set w.head (some w.age) } := rfl

theorem passOver_eq : ∀ (ws : List Waiter) (s : State),
    ∃ c g, passOver ws s = { s with claims := c, grants := g }
  | [], s => ⟨s.claims, s.grants, rfl⟩
  | w :: ws, s => by
    obtain ⟨c, g, e⟩ := passOver_eq ws (if free s.claims w.low w.high then grantClaim w s else s)
    rw [passOver, e]
    split
    · exact ⟨c, g, rfl⟩
    · exact ⟨c, g, rfl⟩

/-- A pass touches the claim table and the grants. -/
theorem pass_eq (s : State) : ∃ c g, pass s = { s with claims := c, grants := g } := passOver_eq ..

theorem arbiterRelease_eq (h : HeadId) (s : State) :
    ∃ c g, arbiterRelease h s = { s with claims := c, grants := g } := by
  obtain ⟨c, g, e⟩ := pass_eq { s with claims := s.claims.set h .empty }
  exact ⟨c, g, e⟩

theorem arbiterRequest_eq (h : HeadId) (low high age : Nat) (s : State) :
    ∃ c g, arbiterRequest h low high age s = { s with claims := c, grants := g } := by
  unfold arbiterRequest
  split
  · exact ⟨_, _, grantClaim_eq ..⟩
  · exact ⟨_, s.grants, rfl⟩

theorem arbiterWithdraw_eq (h : HeadId) (s : State) :
    ∃ c g, arbiterWithdraw h s = { s with claims := c, grants := g } := by
  unfold arbiterWithdraw
  split
  · exact ⟨s.claims, s.grants, rfl⟩
  · exact ⟨_, s.grants, rfl⟩
  · exact arbiterRelease_eq ..

end Sys2Proof.Machine
end

