-- ==== Sys2Proof/Tests/Slice0.lean ====
section
/-! SUPPORT. Small tests: well-formedness, single operations on fixed values, and for every statement with
hypotheses a concrete state and operands that meet all of them together. -/

namespace Sys2Proof.Machine.Tests

/-! ## Well-formedness: an ill-formed operand is refused, one at the edge is taken -/

theorem test_softReset_needs_reset_bit : (Instr.softReset 0xFFFFFFFB#32).wellFormed = false := by decide
theorem test_softReset_reset_bit : (Instr.softReset 0x00000004#32).wellFormed = true := by decide
theorem test_badCommand_good_command : (Instr.badCommand 3 2).wellFormed = false := by decide
theorem test_badCommand_bad_head : (Instr.badCommand 4 1).wellFormed = true := by decide
theorem test_badCommand_bad_command : (Instr.badCommand 0 3).wellFormed = true := by decide
theorem test_scan_of_33 :
    (Instr.scanComplete .h0 (List.replicate 33 0) [] ⟨true, true⟩).wellFormed = false := by decide
theorem test_companion_scan_of_33 :
    (Instr.scanComplete .h0 [] (List.replicate 33 0) ⟨true, true⟩).wellFormed = false := by decide
theorem test_press_of_nothing : (Instr.startPress false false 0).wellFormed = false := by decide
theorem test_release_of_nothing : (Instr.startRelease true true).wellFormed = false := by decide
theorem test_reply_cut_short : (Instr.toolReply [⟨false, 0x40⟩]).wellFormed = false := by decide
theorem test_reply_to_marker : (Instr.toolReply [⟨false, 0x40⟩, ⟨true, 0⟩]).wellFormed = true := by decide
theorem test_reply_nack_of_two : (Instr.toolReply [⟨false, 0⟩, ⟨false, 0⟩]).wellFormed = true := by decide
theorem test_setup_of_4 : (Instr.setupReadDone (some [0, 0, 0, 0])).wellFormed = false := by decide
theorem test_record_of_4 : (Instr.orderFetchDone (some [0, 0, 0, 0])).wellFormed = false := by decide
theorem test_slot_of_5 : (Instr.takeTableReadDone (some (List.replicate 5 0))).wellFormed = false := by
  decide
theorem test_plan_read_of_6 : (Instr.planReadDone .h0 (some (List.replicate 6 0))).wellFormed = false := by
  decide
theorem test_no_word_spells_a_command : decodeTableWord 32 0x1234 = none := rfl

/-! ## Single operations on fixed values -/

/-- 75 at a full scale of 1000 is 307 (R48). -/
theorem test_setpoint : setpointFor 75 1000 = 307 := by decide
theorem test_setpoint_clamps : setpointFor 2000 1000 = 4095 := by decide
theorem test_calibrate_truncates : calibrate (-3) 0 16383 = -2 := by decide
theorem test_quadrature_down : quadStep (quadrature false false) (quadrature true false) = 1 := by decide
theorem test_quadrature_up : quadStep (quadrature false false) (quadrature false true) = -1 := by decide
theorem test_two_line_jump : quadStep (quadrature false true) (quadrature true false) = 0 := by decide
/-- A pulse of one sample is lost; the second of two samples is accepted (R76). -/
theorem test_filter_loses_a_short_pulse :
    let n := Sense.reset false false
    (n.filter true false).2 = none ∧ ((n.filter true false).1.filter false false).2 = none ∧
      ((n.filter true false).1.filter false false).1.seenA = false := by decide
theorem test_filter_accepts_two_samples :
    let n := Sense.reset false false
    ((n.filter true false).1.filter true false).2 = some .lineA ∧
      ((n.filter true true).1.filter true true).2 = some .both ∧
      ((n.filter true false).1.filter true true).2 = some .lineA := by decide
/-- A button and a ram at its top found by the first sample after a reset: levels and a spent pair (R128, R132). -/
theorem test_first_sample :
    let i := Inputs.firstSample 0x1009
    i.startA.level = true ∧ i.startB.level = false ∧ i.pair = .spent ∧ i.ramTop.a0.level = true ∧
      i.due = [] ∧ i.dueAt .h0 = [] ∧ (Inputs.firstSample 0).pair = .ready := by decide
/-- An ESTOP found active by that sample is handed on within the reset: a RELEASE that waits in the queue meets it
(R129, R137). -/
theorem test_estop_at_the_first_sample :
    let s := resetBlocks 0 8 Control.reset State.reset
    s.control.device = .estop ∧ s.control.evt = 0xC0 ∧ (s.head .h0).state = .offline ∧
      s.releaseRefusal .h0 = .estopActive ∧
      (resetBlocks 0 0 Control.reset State.reset).control = Control.reset := by decide
/-- A line idle for 2 ms needs two thousand periods of the filter clock (R103). -/
theorem test_idle_line :
    (ToolBus.reset.idled).idle = 1 ∧ ({ ToolBus.reset with idle := 1999 }).idled.idle = 2000 ∧
      ({ ToolBus.reset with transaction := some ⟨.h0, false, 0, false, false, [], false⟩ }).idled.idle = 0 := by
  decide
/-- Two samples of another level change nothing, the third is a change (R128). -/
theorem test_line_debounce :
    (((Line.settle false).sample true).sample true).changed = false ∧
      ((((Line.settle false).sample true).sample true).sample true).changed = true ∧
      ((((Line.settle false).sample true).sample false).sample true).count = 1 := by decide
/-- A button that is still being filtered keeps its samples when the other one closes (R128). -/
theorem test_start_lines_filter_apart :
    let s := modInputs (fun i => { i with startB := { i.startB with raw := true, count := 2 } }) State.reset
    (match exec (.startPress true false 0) s with
      | .next t => t.inputs.startA.level && decide (t.inputs.startB = s.inputs.startB)
      | _ => false) = true := by decide
/-- A tick with ESTOP and a button shown, all other lines low. -/
theorem test_tick_samples_the_lines :
    (tick 9 State.reset).inputs.estop.asserted = true ∧ (tick 9 State.reset).inputs.startA.count = 1 ∧
      (tick 9 State.reset).inputs.startB.count = 0 := by decide
/-- An edge of head 2's line A is accepted at the second period that shows it. -/
theorem test_period_accepts_an_edge :
    let s := period 4 0 State.reset
    s.pending = [] ∧ s.micros = 1 ∧
      (period 4 0 s).pending = [.acceptedEdge .h2 .lineA ⟨false, false⟩] := by decide
theorem test_ctl_words :
    commandOfWrite 0x04 0#32 = some .runWritten0 ∧ commandOfWrite 0x04 1#32 = some .runWritten1 ∧
      commandOfWrite 0x04 3#32 = some (.abort true) ∧ commandOfWrite 0x04 2#32 = some (.abort false) ∧
      commandOfWrite 0x04 7#32 = some (.softReset 7#32) := by decide
theorem test_hcmd_words :
    commandOfWrite 0x20 0x0103#32 = some (.hcmdHalt .h3) ∧
      commandOfWrite 0x20 0xFFFF0200#32 = some (.hcmdRelease .h0) ∧
      commandOfWrite 0x20 0x0104#32 = some (.badCommand 4 1) ∧
      commandOfWrite 0x20 0x0302#32 = some (.badCommand 2 3) := by decide
theorem test_write_inside_a_register : commandOfWrite 0x06 0#32 = none := by decide
/-- A run that is dropped leaves no candidate and no last qualifying depth (section 4.8). -/
theorem test_dropped_run :
    (Contact.take { Setup.unset with contactThreshold := 40, contactCount := 3, contactReset := 5 } 65 3
      { run := 1, candidate := some 60, lastQualifying := some 60, confirmed := false }) =
      { run := 0, candidate := none, lastQualifying := none, confirmed := false } := by decide
theorem test_intervals_touching : overlap 10 20 20 30 = true := by decide
theorem test_intervals_apart : overlap 10 20 21 30 = false := by decide
theorem test_idn : readRegister 0 State.reset = 0x11B00C71#32 := by decide
theorem test_sta_at_reset : readRegister 8 State.reset = 0x01000000#32 := by decide
theorem test_beyond_window : readRegister 0x24 State.reset = 0 := by decide
theorem test_live_block_size : (State.reset.livePart .h0).length = 32 := by decide

/-! ## The states of the witnesses -/

/-- A setup copy with small limits. -/
def setup : Setup :=
  { Setup.unset with
    areaSize := 65536, directory := 512, lead := 1024, headMask := 15, gangEnable := 3, pollInterval := 100,
    tareAverage := 0, glitchLimit := 100, contactCount := 1, tareOffsetLimit := 100,
    reverseThreshold := 50, slewLimit := 60000, contactReset := 5, contactThreshold := 40, gangSkew := 50,
    zoneMargin := 5 }

/-- An order of head 0. -/
def order : Order :=
  { age := 0, record := 1152, turn := 0, remapCount := 0, pinCount := 1, withHead := true, tag := 7,
    head := .h0, ganged := false,
    startMode := .auto, orientation := .normal, seatMode := .depth, mapId := 0, toolType := 0, remap := [],
    zoneFrom := 10, zoneTo := 20, approachEnd := 20, seekLimit := 60, pressLimit := 100, seatTarget := 80,
    seatForce := 500, shoulderRise := 50, maxSumForce := 1000, approachSpeed := 100, seekSpeed := 50,
    pressSpeed := 30, retractSpeed := 200, samplePitch := 5, dwellTime := 3, resultArea := 4096,
    resultCapacity := 8, traceArea := 0, traceCapacity := 0 }

/-- Run control of a device in a state. -/
def control (d : DeviceState) : Control :=
  { Control.reset with
    run := true, device := d, area := some { base := 0x10000, size := 65536 }, setup := some setup }

/-- A device in a state. -/
def inDevice (d : DeviceState) : State := { State.reset with control := control d }

/-- One live access in flight. -/
def withBus (a : Access) (s : State) : State :=
  { s with bus := [{ access := a, addr := 0, len := 4, data := [], granted := true, fate := .live, age := 0 }] }

/-- Head 0 in a state with its order. -/
def working (st : HeadState) : State :=
  modHead .h0 (fun m => { m with state := st, current := some order }) (inDevice .running)

/-- Heads 0 and 1 in a state as a gang. -/
def ganged (st : HeadState) : State :=
  eachHead (fun h => modHead h (fun m =>
    { (m.drive (Drive.moving 10 1000 .up)) with
      state := st, gang := true, current := some { order with ganged := true } })) [.h0, .h1]
    (inDevice .running)

/-- A POS_READY that falls and rises while the withdraw field is read halts at the entry to APPROACH (R60). -/
theorem test_pos_ready_lost_and_back :
    let s := modHead .h0 (fun m => { m with startRead := some false }) (working .startWait)
    let t := setPosReady .h0 true (losePosition .h0 (setPosReady .h0 false s))
    (t.unit .h0).all t.posReady = true ∧ ((enterApproach false .h0 t).head .h0).state = .halted ∧
      ((enterApproach false .h0 t).head .h0).lastHalt = .positionLost ∧
      ((enterApproach false .h0 (setPosReady .h0 true s)).head .h0).state = .approach := by decide
/-- A guard that a tick brings to 0 may expire before the edge of the same moment (R79). -/
theorem test_guard_against_edge :
    let s := { modHead .h0 (fun m => { m with guardArmed := true, guardCount := 1 }) (working .approach) with
      pending := [.acceptedEdge .h0 .lineA ⟨false, false⟩] }
    (tick 0x100000 s).pending = [.strokeGuardExpire .h0, .acceptedEdge .h0 .lineA ⟨false, false⟩] ∧
      (tick 0 s).pending = [.acceptedEdge .h0 .lineA ⟨false, false⟩] := by decide

/-- A complete plan of no channels. -/
def plan (phase : EvalPhase) : Plan :=
  { phase := phase, contactDepth := 0, pinCount := 1, unjudged := 0, seatMin := 0, seatMax := 100,
    envelopes := [], channels := [], asked := false }

/-- What an evaluator hands over. -/
def hand : HandOver := HandOver.bare .pass .none

/-- A result entry. -/
def entry : ResultEntry :=
  { index := 0, verdict := .pass, grouped := false, carryUnsettled := false, channelFault := false,
    haltedOpen := false, groupSize := 1, maxShare := 0, finalShare := 0, firstBand := none, tine := 0,
    head := .h0 }

/-- An outcome being written, at a stage. -/
def closing (stage : CloseStage) (entries : List ResultEntry) : Closing :=
  { order := order, result := { hand with entries := entries }, contactDepth := 0, seatDepth := 0,
    stroke := true, stage := stage }

/-- A head whose outcome is being written. -/
def writing (st : HeadState) (stage : CloseStage) (entries : List ResultEntry) : State :=
  modHead .h0 (fun m => { m with closing := some (closing stage entries), outcomeFixed := true }) (working st)

/-- The operator's and heads' lines with one change. -/
def withInputs (f : Inputs → Inputs) (s : State) : State := modInputs f s

/-- A state none of whose heads works in a gang is aligned. -/
theorem aligned_of_single {s : State} (e : ∀ h, (s.head h).gang = false) : GangsAligned s := by
  intro h g
  rw [e h] at g
  exact absurd g (by decide)

/-- The gang of heads 0 and 1 is aligned in any state but IDLE and OFFLINE. -/
theorem ganged_aligned {st : HeadState} (e : st.atRest = false) : GangsAligned (ganged st) := by
  intro h g
  cases h
  · exact ⟨rfl, rfl, rfl, e⟩
  · exact ⟨rfl, rfl, rfl, e⟩
  · exact absurd g (by simp [ganged, eachHead, State.head, inDevice, State.reset, Head.reset, modHead,
      Four.set, Four.get, Four.all])
  · exact absurd g (by simp [ganged, eachHead, State.head, inDevice, State.reset, Head.reset, modHead,
      Four.set, Four.get, Four.all])

/-- One live access in flight. -/
theorem withBus_inFlight (a : Access) (s : State) : inFlightFor a (withBus a s) :=
  ⟨_, _, rfl, rfl, rfl, rfl⟩

/-! ## Witnesses: the machine as a whole -/

/-- A command in front; an empty queue with a step due, and with none due in a period without and with a tick; lines
at two and at three samples of another level. -/
theorem witness_StepRunsTheFrontCommand :
    ({ State.reset with pending := [.nudge 0] } : State).pending = .nudge 0 :: [] ∧
      (let s := withInputs (fun i => { i with guard := { i.guard with raw := true, count := 3 } }) State.reset
       s.pending = [] ∧ s.due = .guardOpen :: []) ∧
      State.reset.pending = [] ∧ State.reset.due = [] ∧ State.reset.micros + 1 < 1000 ∧
      (let s := { State.reset with micros := 999 }; s.pending = [] ∧ s.due = [] ∧ 1000 ≤ s.micros + 1) ∧
      (let s := withInputs (fun i => { i with guard := { i.guard with raw := true, count := 2 } }) State.reset
       s.due = []) ∧
      (withInputs (fun i => { i with estop := { i.estop with raw := true, count := 1 } }) State.reset).due
        = [.estopAssert] := by decide

/-- Two claims that touch no common coordinate, and a release on its way. -/
def claimed : State :=
  { inDevice .running with
    claims := ⟨.held 0 9, .held 10 20, .waiting 5 12 3, .empty⟩
    claimMsgs := ⟨[.release], [], [], []⟩
    pending := [.claimRelease .h0] }

theorem witness_StepKeepsHeldClaimsDisjoint :
    ClaimsDisjoint claimed ∧ ∃ t, step claimed = .next t := by
  refine ⟨?_, _, rfl⟩
  intro h k l1 u1 l2 u2 ne e1 e2
  cases h <;> cases k <;>
    first
    | exact absurd rfl ne
    | (cases e1; done)
    | (cases e2; done)
    | (cases e1; cases e2; rfl)

theorem witness_StepKeepsRamsStill :
    RamsStill { ganged .retract with pending := [.hcmdHalt .h1] } ∧
      ∃ t, step { ganged .retract with pending := [.hcmdHalt .h1] } = .next t := by
  refine ⟨⟨ganged_aligned rfl, ?_⟩, _, rfl⟩
  intro h
  cases h <;> decide

theorem witness_StepKeepsPressSafe :
    PressSafe { ganged .retract with pending := [.estopAssert] } ∧
      ∃ t, step { ganged .retract with pending := [.estopAssert] } = .next t := by
  refine ⟨⟨ganged_aligned rfl, fun e => absurd e (by decide), ?_⟩, _, rfl⟩
  intro h
  cases h <;> decide

theorem witness_StepKeepsOneAccessInFlight :
    OneInFlight { withBus .linkRead (inDevice .running) with pending := [.linkReadDone (some 0)] } ∧
      ∃ t, step { withBus .linkRead (inDevice .running) with pending := [.linkReadDone (some 0)] }
        = .next t :=
  ⟨fun r m => absurd m (List.not_mem_nil (a := r)), _, rfl⟩

/-! ## Witnesses: resets and registers -/

theorem witness_RunOneStartsAStoppedDevice :
    (inDevice .stopped).control.device = .stopped ∧ (inDevice .stopped).anyWriting = false ∧
      (inDevice .stopped).control.run = true ∧ (inDevice .stopped).control.staleRun = false ∧
      (let s := modControl (fun c => { c with staleRun := true }) (inDevice .stopped);
        s.control.device = .stopped ∧ s.anyWriting = false ∧ s.control.staleRun = true) := by decide

/-- A RUN written 1 again in STARTING once the start is given up starts nothing; one written in STOPPED does (R171,
R172). -/
theorem test_run_again_in_starting :
    let s := abandonStart (writeRun true (writeRun false (inDevice .starting)))
    s.control.device = .stopped ∧ s.control.run = true ∧ s.startDue = false ∧
      (writeRun true s).control.device = .starting := by decide

/-- A condition that is asserted and one that is not; GUARD open; a link read in flight. -/
theorem witness_EventRegisterWrites :
    (let c := { Control.reset with evt := 0x41, evten := 0x40 }
     c.interruptLine = true ∧ { c with msiSelected := true }.interruptLine = false ∧
       { c with evten := 0x02 }.interruptLine = false) ∧
      (withInputs (fun i => { i with guard := Line.settle true }) State.reset).guardOpen = true ∧
      inFlightFor .linkRead (withBus .linkRead (inDevice .running)) :=
  ⟨by decide, by decide, withBus_inFlight ..⟩

theorem witness_ControlWritesElsewhere :
    (inDevice .fault).control.device ≠ .stopped ∧
      (let s := { writing .halted .fields [] with control := control .stopped };
        s.control.device = .stopped ∧ s.anyWriting = true) ∧
      (inDevice .setupErr).control.device ≠ .running ∧ (inDevice .setupErr).control.device ≠ .stopping ∧
      ({ control .running with aborting := true } : Control).aborting = true := by decide

theorem witness_RunZeroStopsARunningDevice :
    GangsAligned (ganged .startWait) ∧ (ganged .startWait).control.device = .running ∧
      (ganged .startWait).control.aborting = false :=
  ⟨ganged_aligned rfl, rfl, rfl⟩

theorem witness_AbortStopsHeadsAndReader :
    GangsAligned (ganged .press) ∧ (ganged .press).control.device = .running ∧
      GangsAligned { ganged .press with control := control .stopping } ∧
      ({ ganged .press with control := control .stopping } : State).control.device = .stopping :=
  ⟨ganged_aligned rfl, rfl, ganged_aligned rfl, rfl⟩

theorem witness_RegisterWritesThatStoreOrNothing :
    (Instr.badCommand 4 1).wellFormed = true ∧ (Instr.badCommand 3 0).wellFormed = true ∧
      (Instr.badCommand 255 255).wellFormed = true := by decide

theorem witness_NudgeReachesReaderAndHeads :
    let s := modReader (fun r => { r with state := .waiting }) (working .zoneWait)
    s.reader.state = .waiting ∧ s.leads .h0 = true ∧ (s.head .h0).state.beforeStroke = true ∧
      (s.head .h0).current = some order := by decide

/-- A gang in motion, a claim held and one asked for before the stroke, and a plan that is not closed. -/
theorem witness_HaltCommandHalts :
    GangsAligned (ganged .approach) ∧ ((ganged .approach).head .h1).state ≠ .halted ∧
      HeadId.h0 = (ganged .approach).lead .h1 ∧ openOrder (ganged .zoneWait) .h0 { order with ganged := true } ∧
      ((modHead .h0 (fun m => { m with claim := .held }) (working .startWait)).head .h0).claim = .held ∧
      ((modHead .h0 (fun m => { m with claim := .requested }) (working .zoneWait)).head .h0).claim
        = .requested ∧
      (let s := setPlan .h0 (.built (plan .live)) (working .press);
        (s.head .h0).state.inMotion = true ∧ s.plan .h0 = .built (plan .live) ∧
          (plan .live).phase ≠ .closed ∧ (s.head .h0).current = some order ∧
          (s.head .h0).outcomeFixed = false ∧ (s.head .h0).writeFailed = false) := by
  refine ⟨ganged_aligned rfl, by decide, rfl, ?_, by decide, by decide, by decide⟩
  unfold openOrder
  decide

/-- A head halted, one whose order is open and one at rest. -/
theorem witness_HeadsStoppedAndOpenOrders :
    (openOrder (working .startWait) .h0 order ∧ openOrder (working .prepare) .h0 order) ∧
      ((working .dwell).head .h0).state.inMotion = true ∧
      ((working .halted).head .h0).state = .halted ∧
      ((working .zoneWait).head .h0).state.inMotion = false ∧
      ((working .zoneWait).head .h0).state ≠ .halted := by
  unfold openOrder
  decide

/-- Words at the edges of HCMD's and CTL's tables. -/
theorem witness_WrittenWords :
    ((0x0203#32 : Word).extractLsb' 0 8).toNat = HeadId.h3.toNat ∧
      (0x0203#32 : Word).extractLsb' 8 8 = 2 ∧ (0x0100#32 : Word).extractLsb' 8 8 = 1 ∧
      ((0x0100#32 : Word).extractLsb' 0 8).toNat = HeadId.h0.toNat ∧
      3 < ((0x0104#32 : Word).extractLsb' 0 8).toNat ∧ (0x0003#32 : Word).extractLsb' 8 8 ≠ 1 ∧
      (0x0003#32 : Word).extractLsb' 8 8 ≠ 2 := by decide

/-- One state for each reason that refuses a RELEASE, and for each its code. -/
theorem witness_RefusedReleaseChangesOnlyTheCode :
    (working .press).releaseRefusal .h0 = .wrongState ∧
      (withInputs (fun i => { i with estop := Line.settle true }) (working .halted)).releaseRefusal .h0
        = .estopActive ∧
      (withInputs (fun i => { i with guard := Line.settle true }) (working .halted)).releaseRefusal .h0
        = .guardOpen ∧
      (withInputs (fun i => { i with ramTop := Four.all (Line.settle true) })
        (inDevice .running)).releaseRefusal .h0 = .atTop ∧
      (writing .halted .fields []).releaseRefusal .h0 = .outcomePending := by decide

theorem witness_AcceptedReleaseRaisesTheRam :
    GangsAligned (ganged .halted) ∧ (ganged .halted).estopActive = false ∧
      (ganged .halted).guardOpen = false ∧
      ((ganged .halted).head ((ganged .halted).lead .h1)).state = .halted ∧
      ((ganged .halted).head ((ganged .halted).lead .h1)).closing = none ∧
      ((ganged .halted).unit ((ganged .halted).lead .h1)).all (ganged .halted).ramTop = false ∧
      (let s := withInputs (fun i => { i with ramTop := Four.all (Line.settle true) }) (ganged .halted);
        (s.unit (s.lead .h0)).all s.ramTop = true ∧ s.restState .h1 = .idle ∧
          (modControl (fun c => { c with setup := some { setup with headMask := 13 } }) s).restState .h1
            = .offline) ∧
      GangsAligned (inDevice .running) ∧
      ((inDevice .running).head ((inDevice .running).lead .h0)).state.atRest = true ∧
      (inDevice .running).ramTop ((inDevice .running).lead .h0) = false := by
  refine ⟨ganged_aligned rfl, by decide, by decide, by decide, by decide, by decide, by decide,
    aligned_of_single (fun h => by cases h <;> rfl), by decide, by decide⟩

/-! ## Witnesses: emergency stop, fault and the end of a stop -/

theorem witness_EstopStopsThePress :
    GangsAligned (ganged .seek) ∧ (ganged .seek).estopActive = false ∧
      (inDevice .starting).estopActive = false ∧ (inDevice .starting).control.device = .starting :=
  ⟨ganged_aligned rfl, by decide, by decide, rfl⟩

theorem witness_EndsOfEstopStopAndFault :
    (withInputs (fun i => { i with estop := Line.settle true }) (inDevice .estop)).estopActive = true ∧
      (let s := modControl (fun c => { c with run := false }) (inDevice .stopping);
        GangsAligned s ∧ s.control.run = false ∧ s.stopDone = true) ∧
      (let s := modControl (fun c => { c with run := false }) (inDevice .fault);
        GangsAligned s ∧ s.control.run = false ∧ s.control.device = .fault ∧ s.faultQuiet = true) ∧
      (inDevice .stopping).control.run = true ∧ (inDevice .stopping).stopDone = true ∧
      (inDevice .stopping).anyWriting = false ∧
      (let s := { writing .halted .fields [] with control := control .stopping };
        GangsAligned s ∧ s.control.run = true ∧ s.stopDone = true ∧ s.anyWriting = true) := by
  refine ⟨by decide, ⟨aligned_of_single (fun h => by cases h <;> rfl), rfl, by decide⟩,
    ⟨aligned_of_single (fun h => by cases h <;> rfl), rfl, rfl, by decide⟩, rfl, by decide, by decide,
    ⟨aligned_of_single (fun h => by cases h <;> rfl), rfl, by decide, by decide⟩⟩

theorem witness_WriteErrorIsADeviceFault :
    GangsAligned (withBus .takenWrite (ganged .press)) ∧
      (∃ r rest, (withBus .takenWrite (ganged .press)).bus = r :: rest ∧ r.granted = true ∧
        r.access.isRead = false ∧ r.fate ≠ .orphaned) ∧
      (ganged .press).control.startEstop = false ∧
      (modControl (fun c => { c with startEstop := true })
        (withBus .headerAll (inDevice .starting))).control.startEstop = true ∧
      ((working .halted).head .h0).state = .halted :=
  ⟨ganged_aligned rfl, ⟨_, _, rfl, rfl, rfl, by decide⟩, rfl, rfl, by decide⟩

/-! ## Witnesses: starting -/

/-- The first 64 bytes of a setup block that passes every check, laid out from section 11.2. -/
def goodSetupHead : List Byte :=
  put16 1 ++ [0, 15] ++ put32 65536 ++ put32 512 ++ put32 1024 ++ [3, 2, 0, 0, 3, 3, 3, 0] ++ put16 600 ++
    [0, 0] ++ put32 100 ++ put32 5000 ++ put16 20 ++ put16 50 ++ put32 5 ++ put32 20 ++ put16 40 ++
    put16 5 ++ zeros 12

/-- Full-scale force and guard interval of one head. -/
def goodSetupTail : List Byte := put32 20000 ++ put16 20 ++ zeros 2

/-- A setup block that passes every check, but for a change. -/
def setupBlock : List Byte :=
  goodSetupHead ++ goodSetupTail ++ goodSetupTail ++ goodSetupTail ++ goodSetupTail ++ zeros 160

/-- Bytes with others laid over them from an offset on. -/
def patched (d : List Byte) (offset : Nat) (bytes : List Byte) : List Byte :=
  d.take offset ++ bytes ++ d.drop (offset + bytes.length)

set_option maxRecDepth 20000 in
/-- A block that passes, with fields at the edges of their ranges, and one just past the edge of each range. -/
theorem witness_SetupReadDecidesTheStart :
    inFlightFor .setupRead (withBus .setupRead (inDevice .starting)) ∧
      (inDevice .starting).control.device = .starting ∧ (inDevice .starting).startLost = false ∧
      setupBlock.length = 256 ∧ setupRefusal setupBlock = none ∧
      ([(4, put32 16777216), (8, put32 65024), (12, put32 65408), (64, put32 1000), (92, put16 1000), (19, [8]),
        (20, [10]), (24, put16 32767), (28, put32 100000), (32, put32 1000000), (36, put16 2000),
        (40, put32 100000), (44, put32 2000000), (22, [15]), (38, put16 5000), (48, put16 10), (50, put16 2000)].all
        (fun e => setupRefusal (patched setupBlock e.1 e.2) = none)) = true :=
  ⟨withBus_inFlight .., by decide, by decide, by decide, by decide, by decide⟩

set_option maxRecDepth 20000 in
theorem witness_SetupReadDecidesTheStart_refused :
    ([(0, put16 2), (4, put32 16842752), (8, put32 65088), (12, put32 448), (2, [2]), (64, put32 999),
        (72, put32 50001), (80, put32 999), (88, put32 50001), (68, put16 0), (76, put16 1001), (84, put16 0),
        (92, put16 1001), (19, [9]), (20, [2]), (24, put16 32768), (28, put32 0), (21, [0]), (32, put32 1000001),
        (36, put16 19), (40, put32 100001), (44, put32 0), (22, [16]), (38, put16 0), (48, put16 9),
        (50, put16 2001)].map (fun e => setupRefusal (patched setupBlock e.1 e.2))) =
      [0x02#8, 0x03#8, 0x04#8, 0x05#8, 0x06#8, 0x10#8, 0x11#8, 0x12#8, 0x13#8, 0x14#8, 0x15#8, 0x16#8, 0x17#8,
        0x20#8, 0x21#8, 0x22#8, 0x23#8, 0x24#8, 0x25#8, 0x26#8, 0x27#8, 0x28#8, 0x29#8, 0x2A#8, 0x2B#8,
        0x2C#8].map some := by decide

theorem witness_HeaderWrittenStartsRunning :
    let s := withBus .headerAll (inDevice .starting)
    GangsAligned s ∧ inFlightFor .headerAll s ∧ s.control.device = .starting ∧ s.startLost = false :=
  ⟨aligned_of_single (fun h => by cases h <;> rfl), withBus_inFlight .., rfl, by decide⟩

/-- A start that RUN 0 has given up, at its setup read, and one that ESTOP has met, at its header write. -/
theorem witness_StartsGivenUp :
    (let s := modControl (fun c => { c with startGivenUp := true }) (withBus .setupRead (inDevice .starting));
      inFlightFor .setupRead s ∧ s.control.device = .starting ∧ s.startLost = true) ∧
      (let s := modControl (fun c => { c with startEstop := true }) (withBus .headerAll (inDevice .starting));
        inFlightFor .headerAll s ∧ s.control.device = .starting ∧ s.startLost = true) :=
  ⟨⟨⟨_, _, rfl, rfl, rfl, rfl⟩, by decide⟩, ⟨⟨_, _, rfl, rfl, rfl, rfl⟩, by decide⟩⟩

/-! ## Witnesses: depth, triggers and scans -/

theorem witness_EdgeReloadsGuardAndFiresTrigger :
    let s := modSense .h0 (fun n => { n with triggerArmed := true, nextTrigger := 1 }) (working .press)
    (s.head .h0).gang = false ∧ (s.head .h0).current = some order ∧
      triggerReached s .h0 .lineA = true ∧ triggerReached s .h0 .lineB = false := by decide

/-- A trigger that the depth has passed by becoming 0: an upward edge, a two-line jump and an edge with RAM_TOP
asserted fire nothing, the first move downward fires it (R78, R80). -/
theorem test_trigger_passed_at_the_top :
    let s := modSense .h0 (fun n => { n with triggerArmed := true, nextTrigger := -3 }) (working .approach)
    let fired := fun edge s => (((edgeAccepted .h0 edge ⟨false, false⟩ s).sense .h0).firings)
    fired .lineB s = [] ∧ fired .both s = [] ∧ fired .lineA (setRamTop .h0 true s) = [] ∧
      fired .lineA s = [plainFiring .step 1] := by decide

/-- A gang that an edge at its primary fires and does not skew; the companion is h1. -/
theorem witness_GangEdgesAndTimedScans :
    (let s := modSense .h0 (fun n => { n with triggerArmed := true, nextTrigger := 1 }) (ganged .press);
      (s.head .h0).gang = true ∧ (s.head HeadId.h0.primary).gang = true ∧
        (s.head HeadId.h0.primary).current = some { order with ganged := true } ∧
        ¬s.setup.gangSkew < (gangDepth s .h0 .lineA .h0 - gangDepth s .h0 .lineA .h1).natAbs ∧
        triggerReached s .h0 .lineA = true ∧ triggerReached s .h0 .lineB = false) ∧
      HeadId.h1 = HeadId.h1.companion ∧ HeadId.h0 = HeadId.h0.primary ∧
      (let s := modHead .h0 (fun m => { m with dwell := some 1 }) (ganged .dwell);
        s.taring .h0 = false ∧ s.dwelling .h0 = true ∧ (s.head .h0).gang = true) := by decide

theorem witness_HaltCausesOfAStrokeHalt :
    (let s := modSense .h0 (fun n => { n with depth := 50 }) (ganged .press);
      GangsAligned s ∧ (s.head .h0).gang = true ∧ (s.head .h0).state.inStroke = true ∧
        (s.head .h0).atTop = false ∧ (s.head .h1).atTop = false ∧
        s.setup.gangSkew < (depthAfter s .h0 .lineA - (s.sense .h1).depth).natAbs) ∧
      (let s := modHead .h0 (fun m => { m with guardArmed := true }) (working .recover);
        (s.head .h0).guardArmed = true ∧ (s.head .h0).guardCount = 0 ∧
          (s.head (s.lead .h0)).state = .recover) ∧
      (let s := withInputs (fun i => { i with posReady := Four.all (Line.settle true) }) (working .retract);
        s.posReady .h0 = true ∧ (s.head (s.lead .h0)).state.inStroke = true) ∧
      (let s := withInputs (fun i => { i with posReady := Four.all (Line.settle true) })
          (modHead .h0 (fun m => { m with startRead := some false }) (ganged .startWait));
        s.posReady .h1 = true ∧ s.lead .h1 = .h0 ∧ (s.head .h0).state.inStroke = false ∧
          (s.head .h0).startRead.isSome = true) :=
  ⟨⟨ganged_aligned rfl, by decide, by decide, by decide, by decide, by decide⟩, by decide, by decide, by decide⟩

theorem witness_TimedTicksStartScans :
    (let s := modSense .h0 (fun n => { n with tare := some { sums := [0], taken := 0 } }) (working .prepare);
      s.taring .h0 = true) ∧
      (let s := modHead .h0 (fun m => { m with dwell := some 1 }) (working .dwell);
        s.taring .h0 = false ∧ s.dwelling .h0 = true ∧ (s.head .h0).gang = false) := by decide

/-- A converter that has finished before its partner is IDLE at the next tick of a gang's DWELL; only the one
with the fewer tines may have (R81, R83). -/
theorem test_timed_scan_on_the_idle_converter :
    let s := modSense .h1 (fun n => { n with scanning := true }) (modSense .h0 (fun n =>
      { n with scanning := true, firings := [{ plainFiring .dwell 0 with companion := true }] })
      (ganged .dwell))
    let s := modHead .h0 (fun m => { m with dwell := some 1 }) (modTool .h1 (fun t => { t with tines := 9 }) s)
    let t := timedScan .h0 ⟨true, false⟩ s
    s.mayFinishFirst .h0 = true ∧ s.mayFinishFirst .h1 = false ∧
      (t.sense .h0).firings.length = 2 ∧ (t.sense .h0).overruns = 1 ∧
      ((timedScan .h0 ⟨false, false⟩ s).sense .h0).firings.length = 1 := by decide

theorem witness_TareScansAreSummedAndJudged :
    let s := modSense .h0 (fun n => { n with
      firings := [plainFiring .tare 0], tare := some { sums := [0], taken := 1 } }) (working .prepare)
    (s.sense .h0).firings = plainFiring .tare 0 :: [] ∧ (plainFiring .tare 0).kind = .tare ∧
      (plainFiring .tare 0).discard = false ∧ (s.sense .h0).tare = some { sums := [0], taken := 1 } ∧
      tareScans s.setup ≤ 1 := by decide

/-- A mean at the tare offset limit and one beyond it, and a channel with neither a sum nor a tine. -/
theorem witness_TaredChannels :
    let s := modSense .h0 (fun n => { n with tare := some { sums := [100, -101], taken := 1 } })
      (working .prepare)
    (s.sense .h0).channels[1]? = some { offset := 0, slewRef := none, glitches := 0, health := .ok } ∧
      ¬s.setup.tareOffsetLimit < (Int.tdiv 100 (2 ^ s.setup.tareAverage)).natAbs ∧
      s.setup.tareOffsetLimit < (Int.tdiv (-101) (2 ^ s.setup.tareAverage)).natAbs ∧
      ([100, -101] : List Int)[2]? = none := by decide

/-! ## Witnesses: the stroke -/

/-- Head 0 at a sample of depth `d`, with a tool of one tine of gain 1, a plan, and a firing. -/
def sampling (st : HeadState) (kind : ScanKind) (d : Int) : State :=
  setPlan .h0 (.built (plan .live)) (modSense .h0 (fun n => { n with firings := [plainFiring kind d] })
    (modTool .h0 (fun t => { t with tines := 1, gains := [16384], limits := [1000] }) (working st)))

/-- A scan that ends after press end makes its sample, which is not kept; one after the seek limit is (log 18). -/
theorem test_late_scans_make_their_samples :
    let late (st : HeadState) := scanFinished .h0 [50] [] ⟨true, true⟩
      (modSense .h0 Sense.endTrigger (sampling st .step 80))
    ((late .dwell).sense .h0).peak = 50 ∧ ((late .dwell).sense .h0).history = [] ∧
      ((late .dwell).head .h0).state = .dwell ∧ ((late .seek).sense .h0).history.length = 1 ∧
      ((late .seek).head .h0).state = .seek := by decide

theorem witness_ForceTestsHalt :
    (let s := sampling .approach .step 19;
      (s.sense .h0).firings = plainFiring .step 19 :: [] ∧ (s.head .h0).current = some order ∧
        (sampleOf s .h0 (plainFiring .step 19) [] [40] []).depth < order.approachEnd ∧
        s.setup.contactThreshold ≤ (sampleOf s .h0 (plainFiring .step 19) [] [40] []).sum) ∧
      order.maxSumForce ≤ (sampleOf (sampling .seek .step 30) .h0 (plainFiring .step 30) [] [1000] []).sum ∧
      (sampling .press .step 30).pinHaltAsked .h0 = false ∧
      order.maxSumForce ≤ (sampleOf (sampling .press .step 30) .h0 (plainFiring .step 30) [] [1000] []).sum ∧
      order.maxSumForce ≤
        (sampleOf (sampling .dwell .dwell 80) .h0 (plainFiring .dwell 80) [] [1000] []).sum := by decide

/-- A firing of head 0's own converter, a tine that is read and one that is not; a reading at the converter's
limit, one beyond the slew limit, one below the reverse threshold, one that is present, and a FAULTED channel. -/
theorem witness_SamplesAndReadings :
    ((sampling .press .step 30).head .h0).gang = false ∧ (plainFiring .step 30).own = true ∧
      (plainFiring .step 30).companion = false ∧ (plainFiring .step 30).kind ≠ .tare ∧
      1 ≤ ((sampling .press .step 30).sense .h0).channels.length ∧ (0x7FFF#16 : Raw).toInt = 32767 ∧
      beyondSlew 60000 (some 0) 60001 = true ∧ beyondSlew 60000 (some 0) 60000 = false ∧
      calibrate (0xFFCD#16 : Raw).toInt 0 16384 < -(setup.reverseThreshold : Int) ∧
      ¬calibrate (0xFFCE#16 : Raw).toInt 0 16384 < -(setup.reverseThreshold : Int) := by decide

/-- A firing of a gang's two converters, and one on which the companion's has not started. -/
theorem witness_GangSamples :
    let f : Firing := { kind := .step, depth := 30, own := true, companion := true, discard := false }
    let s := modSense .h0 (fun n => { n with firings := [f, { f with companion := false }] })
      (eachHead (fun h => modTool h (fun t => { t with tines := 1, gains := [16384], limits := [1000] }))
        [.h0, .h1] (ganged .press))
    (s.sense .h0).firings = f :: [{ f with companion := false }] ∧ f.discard = false ∧ f.kind ≠ .tare ∧
      (s.head .h0).gang = true ∧ HeadId.h0 = HeadId.h0.primary ∧ HeadId.h1 = HeadId.h0.companion ∧
      (sampleOf s .h0 f [] [50] [30]).sum = 80 ∧
      (sampleOf s .h0 { f with companion := false } [] [50] [30]).companion = [none] ∧
      (sampleOf s .h0 { f with companion := false } [] [50] [30]).sum = 50 := by decide

/-- A run at the contact threshold and one below it, at the reset depth and short of it. -/
theorem witness_ContactDetection :
    let c := { setup with contactThreshold := 40, contactReset := 50, contactCount := 2 }
    let x : Contact := { run := 1, candidate := some 10, lastQualifying := some 10, confirmed := false }
    (x.take c 20 40).confirmed = true ∧ (x.take c 20 40).candidate = some 10 ∧
      (Contact.cleared.take c 20 40).candidate = some 20 ∧ (x.take c 59 39).run = 1 ∧
      (x.take c 60 39).run = 0 ∧ (x.take c 60 39).lastQualifying = none := by decide

/-- Samples of APPROACH at the approach end: one of overforce, one that confirms contact, one that does not. -/
theorem witness_ApproachEnds :
    let s := sampling .approach .step 20
    let smp (raw : Raw) := sampleOf s .h0 (plainFiring .step 20) [] [raw] []
    GangsAligned s ∧ (s.head .h0).state = .approach ∧ order.approachEnd ≤ (smp 39).depth ∧
      (smp 39).depth < order.seekLimit ∧ (Contact.cleared.take s.setup 20 (smp 39).sum).confirmed = false ∧
      (Contact.cleared.take s.setup 20 (smp 40).sum).confirmed = true ∧
      order.maxSumForce ≤ (smp 1000).sum ∧ (smp 40).sum < order.maxSumForce :=
  ⟨aligned_of_single (fun h => by cases h <;> rfl), by decide⟩

/-- A sample that confirms contact, and one at the seek limit that does not. -/
theorem witness_SeekEndsInContactOrAtItsLimit :
    (let s := sampling .seek .step 60;
      let smp := sampleOf s .h0 (plainFiring .step 60) [] [40] [];
      ((s.sense .h0).contact.take s.setup smp.depth smp.sum).confirmed = true ∧
        smp.sum < order.maxSumForce ∧ overLimit (s.tool .h0).limits smp.own = false ∧
        overLimit (s.tool HeadId.h0.companion).limits smp.companion = false) ∧
      (let s := sampling .seek .step 60;
        let smp := sampleOf s .h0 (plainFiring .step 60) [] [39] [];
        ((s.sense .h0).contact.take s.setup smp.depth smp.sum).confirmed = false ∧
          order.seekLimit ≤ smp.depth ∧ smp.sum < order.maxSumForce ∧
          s.plan .h0 = .built (plan .live) ∧ s.leads .h0 = true) ∧
      (ganged .seek).leads .h0 = true ∧ (ganged .press).leads .h0 = true := by decide

/-- An open window of a group of one pin. -/
def group : Group :=
  { engage := 3, members := [], window := .opened, baseline := 100, maxShare := none, finalShare := none,
    present := 0, lastDepth := none, carryUnsettled := false, channelFault := false, haltedOpen := false }

/-- One pin judged on an envelope of one band. -/
def member : Member :=
  { entry := 0, envelope := some 0, counts := [0], low := false, high := false, buckle := false,
    firstBand := none, verdict := none }

/-- Its envelope. -/
def envelope : Envelope :=
  { id := 0, engageMin := 10, buckleDrop := 5,
    bands := [{ bandFrom := 0, bandTo := 20, minShare := 3, maxShare := 60, haltAction := false }] }

/-- A plan with a pin on head 0's only tine, whose one band halts outside shares 3 to 60. -/
def haltingPlan (phase : EvalPhase) (engage : Nat) (window : WindowState) : Plan :=
  { plan phase with
    envelopes := [{ envelope with bands := envelope.bands.map (fun b => { b with haltAction := true }) }]
    channels := [{
      head := .h0, tine := 0, lastTwo := [],
      groups := [{ group with engage := engage, window := window, members := [member] }] }] }

/-- Head 0 as `sampling` has it, with a plan and a history. -/
def sampled (st : HeadState) (d : Int) (p : Plan) (history : List Sample) : State :=
  setPlan .h0 (.built p) (modSense .h0 (fun n => { n with history := history }) (sampling st .step d))

/-- A sample of no tine. -/
def sum (force : Int) : Sample :=
  { depth := 0, own := [], companion := [], ownHealth := [], companionHealth := [], sum := force, timed := false }

/-- Samples at the edge of each seat mode's condition, and at the press limit. -/
theorem witness_SeatConditions :
    (seatReached order [] { sum 0 with depth := 80 } ∧ ¬seatReached order [] { sum 0 with depth := 79 }) ∧
      (let o := { order with seatMode := .force }
       seatReached o [] (sum 500) ∧ ¬seatReached o [] (sum 499)) ∧
      (let o := { order with seatMode := .shoulder }
       let before := [sum 0, sum 100, sum 1, sum 2, sum 3]
       seatReached o before (sum 150) ∧ ¬seatReached o before (sum 149) ∧
         ¬seatReached o [sum 1, sum 2, sum 3] (sum 900)) := by
  refine ⟨by simp [seatReached, order], by simp [seatReached, sum, order], ?_, ?_, ?_⟩
  · exact ⟨[sum 0], sum 100, sum 1, sum 2, sum 3, rfl, by decide⟩
  · rintro ⟨older, f, a, b, c, e, rise⟩
    obtain ⟨-, tail⟩ := List.append_inj' (s₁ := [sum 0]) (s₂ := older) e rfl
    obtain ⟨rfl, -⟩ := List.cons.inj tail
    exact absurd rise (by decide)
  · rintro ⟨older, f, a, b, c, e, -⟩
    have := congrArg List.length e
    simp at this

/-- A sample of PRESS at the seat target, one at the press limit, one short of both whose share leaves its HALT
band, one whose share does not, and a plan that has asked before. -/
theorem witness_PressEnds :
    (let s := sampled .press 80 (plan .live) []
     let smp := sampleOf s .h0 (plainFiring .step 80) [] [50] []
     (s.sense .h0).firings = plainFiring .step 80 :: [] ∧ (s.head .h0).current = some order ∧
       (s.head .h0).state = .press ∧ s.leads .h0 = true ∧ s.plan .h0 = .built (plan .live) ∧
       (plan .live).asked = false ∧ smp.sum < order.maxSumForce ∧ overLimit (s.tool .h0).limits smp.own = false ∧
       overLimit (s.tool HeadId.h0.companion).limits smp.companion = false ∧ order.seatTarget ≤ smp.depth) ∧
      (let s := sampled .press 100 (plan .live) []
       order.pressLimit ≤ (sampleOf s .h0 (plainFiring .step 100) [] [50] []).depth) ∧
      (let s := sampled .press 10 (haltingPlan .live 3 .opened) []
       let smp raw := sampleOf s .h0 (plainFiring .step 10) [] [raw] []
       (smp 161).depth < order.seatTarget ∧ (smp 161).depth < order.pressLimit ∧
         ((haltingPlan .live 3 .opened).take setup.settleLimit .h0 (smp 161)).asked = true ∧
         ((haltingPlan .live 3 .opened).take setup.settleLimit .h0 (smp 160)).asked = false) ∧
      { haltingPlan .live 3 .opened with asked := true }.asked = true := by decide

/-- A HALT band violated in PRESS halts with PIN_HALT when the request arrives, and leaves the head in PRESS before
(R31, R63). -/
theorem test_halt_band_halts_the_press :
    let run arrives := exec (.scanComplete .h0 [161] [] ⟨true, arrives⟩)
      (sampled .press 10 (haltingPlan .live 3 .opened) [])
    (match run true with
      | .next t => decide ((t.head .h0).state = .halted ∧ (t.head .h0).lastHalt = .pinHalt)
      | _ => false) = true ∧
      (match run false with
      | .next t => (t.head .h0).state == .press && t.pinHaltAsked .h0
      | _ => false) = true := by decide

/-- Contact in SEEK: its replay asks for a halt, does not, and its sample ends the press. -/
theorem witness_ContactIsReplayed :
    (let s := sampled .seek 60 (haltingPlan .armed 3 .unopened) []
     let smp raw := sampleOf s .h0 (plainFiring .step 60) [] [raw] []
     let found raw := (s.sense .h0).contact.take s.setup (smp raw).depth (smp raw).sum
     let q raw := replayed s.setup.settleLimit .h0 60 (replayOf 60 (addHistory (s.sense .h0).history (smp raw)))
       ((haltingPlan .armed 3 .unopened).markFaults s.channelFaulted)
     (found 161).confirmed = true ∧ (found 161).candidate.getD (smp 161).depth = 60 ∧
       (q 161).phase = .live ∧ (q 161).asked = false ∧
       ((smp 161).depth < order.seatTarget ∧ (smp 161).depth < order.pressLimit) ∧
       let late := sampled .seek 80 (plan .armed) []
       order.seatTarget ≤ (sampleOf late .h0 (plainFiring .step 80) [] [50] []).depth) ∧
      (let p := haltingPlan .armed 0 .unopened
       (replayed 0 .h0 60 [{ sum 0 with depth := 60, own := [some 61] }] p).asked = true ∧
         (replayed 0 .h0 60 [{ sum 0 with depth := 60, own := [some 60] }] p).asked = false) := by decide

theorem witness_DwellExpiryBeginsTheResults :
    let s := modHead .h0 (fun m => { m with dwell := some 0, handed := some hand }) (working .dwell)
    (s.head .h0).state = .dwell ∧ (s.head .h0).dwell = some 0 ∧ (s.head .h0).current = some order ∧
      (s.head .h0).handed = some hand ∧ (s.head .h0).trace.inFlight = 0 ∧
      ((modHead .h0 (fun m => { m with trace := { m.trace with inFlight := 1 } }) s).head .h0).trace.inFlight
        ≠ 0 := by decide

theorem witness_HaltAfterPressEndKeepsVerdicts :
    let s := setPlan .h0 (.built (plan .closed))
      (modHead .h0 (fun m => { m with handed := some hand }) (working .dwell))
    s.plan .h0 = .built (plan .closed) ∧ (plan .closed).phase = .closed ∧
      (s.head .h0).current = some order ∧ (s.head .h0).handed = some hand ∧
      (s.head .h0).outcomeFixed = false ∧ (s.head .h0).writeFailed = false := by decide

theorem witness_ShareOfASample :
    group.window = .opened ∧ group.maxShare = none ∧
      { group with maxShare := some 5 }.maxShare = some 5 := by decide

/-- A channel whose group takes over from an open one, with its last two forces as far apart as the settle limit and
further. -/
theorem witness_CarryIsChecked :
    let open3 := { group with present := 2 }
    let after lastTwo := (advanceGroups [] 3 10 19 lastTwo none
      [open3, { group with engage := 9, window := .unopened }])[1]?.map (·.carryUnsettled)
    after [10, 6] = some true ∧ after [10, 7] = some false ∧ after [10] = some false ∧
      (advanceGroups [] 3 10 19 [10, 6] none
        [{ open3 with present := 1 }, { group with engage := 9, window := .unopened }])[1]?.map (·.carryUnsettled)
          = some false := by decide

/-- A fault marks an open window and one not yet opened, and leaves a closed one and a CLOSED plan. -/
theorem witness_FaultsAreMarked :
    let marked phase window := ((haltingPlan phase 3 window).markFaults (fun _ tine => tine == 0)).channels.map
      (fun c => c.groups.map (·.channelFault))
    marked .live .opened = [[true]] ∧ marked .armed .unopened = [[true]] ∧ marked .live .closed = [[false]] ∧
      marked .closed .opened = [[false]] := by decide

/-- A history of 16 samples, whose oldest gives way; replays from the sample at Dc on. -/
theorem witness_HistoryIsReplayed :
    let at_ (depth : Int) := { sum 0 with depth := depth }
    addHistory (List.replicate 15 (at_ 1)) (at_ 2) = List.replicate 15 (at_ 1) ++ [at_ 2] ∧
      addHistory (at_ 0 :: List.replicate 15 (at_ 1)) (at_ 2) = List.replicate 15 (at_ 1) ++ [at_ 2] ∧
      replayOf 2 ([at_ 1] ++ [at_ 2, at_ 3]) = [at_ 2, at_ 3] := by decide

/-- A window that opens, one that closes as the next opens, a pin judged and one that is not, a violation each
way at the band's edge, and press ends in and out of the seat range. -/
theorem witness_WindowsAndVerdicts :
    ((advanceGroups [] 3 10 13 [7, 8] none [{ group with window := .unopened }, { group with engage := 9 }])[0]?.map
        (fun t => (t.window, t.baseline))) = some (.opened, 7) ∧
      ((advanceGroups [] 3 10 19 [7, 8] none [group, { group with engage := 9, window := .unopened }])[0]?.map
        (fun t => t.window)) = some .closed ∧
      member.judgedOn [envelope] = some envelope ∧ { member with envelope := none }.judgedOn [envelope] = none ∧
      (member.observe [envelope] 0 2 2).low = true ∧ (member.observe [envelope] 19 61 61).high = true ∧
      (member.observe [envelope] 20 61 61).high = false ∧ (member.observe [envelope] 5 3 9).buckle = true ∧
      (member.observe [envelope] 5 4 9).buckle = false ∧
      ((plan .live).pressEnd 100 .depth false).2.reason = .none ∧
      ((plan .live).pressEnd 101 .depth false).2.reason = .seatRange ∧
      ((plan .live).pressEnd 100 .force false).2.reason = .noSeat := by decide

/-! ## Witnesses: operator station -/

theorem witness_GuardOpeningHaltsMovingHeads :
    GangsAligned (ganged .dwell) ∧ (ganged .dwell).guardOpen = false ∧
      ((ganged .dwell).head .h1).state.inMotion = true :=
  ⟨ganged_aligned rfl, by decide, by decide⟩

/-- A head that waits in START_WAIT with POS_READY and GUARD as given. -/
def waiting (mode : StartMode) (guard pos : Bool) : State :=
  withInputs (fun i => { i with
      guard := Line.settle guard, posReady := i.posReady.set .h0 (Line.settle pos) })
    (modHead .h0 (fun m => { m with current := some { order with startMode := mode } })
      (working .startWait))

theorem witness_AutoAndOperatorStarts :
    ((waiting .auto true true).estopActive = false ∧ (waiting .auto true true).guardOpen = true ∧
      readyToStart .auto (waiting .auto true true) .h0 order) ∧
      ((waiting .auto false false).posReady .h0 = false ∧ (waiting .auto false false).guardOpen = false ∧
        readyToStart .auto (setPosReady .h0 true (waiting .auto false false)) .h0 order) ∧
      readyToStart .operator (waiting .operator false true) .h0 { order with startMode := .operator } ∧
      pairCompleted true .ready = true ∧ pairCompleted false (.oneDown true 500) = true ∧
      pairCompleted false (.oneDown true 501) = false := by
  unfold readyToStart
  decide

theorem witness_TwoHandPairWindow :
    let s := withInputs (fun i => { i with pair := .oneDown false 501 }) (working .startWait)
    s.inputs.pair = .oneDown false 501 ∧ s.inputs.startA.level = false := by decide

theorem witness_ReleaseHaltsHeadsStartedByPair :
    let s := withInputs (fun i => { i with startA := Line.settle true })
      (modHead .h0 (fun m => { m with startedByPair := true }) (working .seek))
    GangsAligned s ∧ s.inputs.startA.level = true ∧ s.leads .h0 = true ∧ (s.head .h0).state = .seek ∧
      (s.head .h0).startedByPair = true :=
  ⟨aligned_of_single (fun h => by cases h <;> rfl), by decide⟩

theorem witness_TopReferenceEndsTheRise :
    ((working .retract).ramTop .h0 = false ∧ ((working .retract).head .h0).gang = false ∧
      ((working .retract).head .h0).state = .retract) ∧
      ((ganged .recover).ramTop .h1 = false ∧ ((ganged .recover).head .h1).gang = true ∧
        GangsAligned (ganged .recover) ∧ ((ganged .recover).head .h0).atTop = false ∧
        (ganged .recover).ramTop .h0 = false) ∧
      (let s := modHead .h0 (fun m => { m with atTop := true, claim := .held, contactReached := true })
          (ganged .retract);
        (s.head .h1).gang = true ∧ GangsAligned s ∧ (s.head .h1).state = .retract ∧
          s.ramTop .h1 = false ∧ (∀ k ∈ s.unit .h1, k ≠ .h1 → (s.head k).atTop = true ∨ s.ramTop k = true) ∧
          (s.head HeadId.h1.primary).contactReached = true ∧ (s.head HeadId.h1.primary).claim = .held) := by
  refine ⟨by decide, ⟨by decide, by decide, ganged_aligned rfl, by decide, by decide⟩, by decide, ?_,
    by decide, by decide, by decide, by decide⟩
  intro h g
  cases h
  · exact ⟨rfl, rfl, rfl, rfl⟩
  · exact ⟨rfl, rfl, rfl, rfl⟩
  · exact absurd g (by decide)
  · exact absurd g (by decide)

/-- Strokes counted at the wear limit and at the top of the count, beside a wear write that waits and one that
has been granted, and on a tool that is not READY. -/
theorem test_counted_strokes :
    let t := { Tool.reset with state := .ready, strokes := 4, wearLimit := 6 }
    (strokeCounted t).strokes = 5 ∧ (strokeCounted t).worn = false ∧ (strokeCounted t).request = .wearWrite ∧
      (strokeCounted { t with strokes := 5 }).worn = true ∧
      (strokeCounted { t with wearLimit := 0 }).worn = false ∧
      (strokeCounted { t with strokes := 4294967295 }).strokes = 4294967295 ∧
      (strokeCounted { t with request := .wearWrite }).wearAgain = false ∧
      (strokeCounted { t with request := .wearWrite, wearGranted := true }).wearAgain = true ∧
      strokeCounted { t with state := .fault } = { t with state := .fault } := by decide

/-- Every ram at the top, and a tare running on `k`. -/
def taring (k : HeadId) (s : State) : State :=
  withInputs (fun i => { i with ramTop := Four.all (Line.settle true) })
    (modSense k (fun n => { n with tare := some { sums := [0], taken := 0 } }) s)

/-- A tare of a single head, one of a gang's other head, each way, and a head without one. -/
theorem witness_RamTopFallAbandonsATare :
    (let s := taring .h0 (working .prepare)
     s.ramTop .h0 = true ∧ (∃ k ∈ s.unit .h0, (s.sense k).tare ≠ none) ∧
       (s.head (s.lead .h0)).current = some order ∧ (s.head (s.lead .h0)).outcomeFixed = false ∧
       (s.head (s.lead .h0)).writeFailed = false ∧ s.ramTop .h1 = true ∧
       ∀ k ∈ s.unit .h1, (s.sense k).tare = none) ∧
      (let s := taring .h0 (ganged .prepare)
       s.ramTop .h1 = true ∧ (∃ k ∈ s.unit .h1, (s.sense k).tare ≠ none) ∧ (s.sense .h1).tare = none ∧
         (s.head (s.lead .h1)).current = some { order with ganged := true } ∧
         (s.head (s.lead .h1)).outcomeFixed = false ∧ (s.head (s.lead .h1)).writeFailed = false) ∧
      (let s := taring .h1 (ganged .prepare)
       s.ramTop .h0 = true ∧ (∃ k ∈ s.unit .h0, (s.sense k).tare ≠ none) ∧ (s.sense .h0).tare = none) := by
  decide

/-- The companion's RAM_TOP falls while the primary alone is taring: its tare is abandoned and the order ends
REFUSED with RAM_NOT_TOP (R130). -/
theorem test_companion_fall_abandons_the_primarys_tare :
    (match exec (.ramTopFall .h1) (taring .h0 (ganged .prepare)) with
      | .next t => (t.sense .h0).tare.isNone && !(t.sense .h0).tareValid &&
          decide ((t.head .h0).closing.map (·.result) = some (HandOver.bare .refused .ramNotTop))
      | _ => false) = true := by decide

/-! ## Witnesses: tooling -/

/-- A transaction of head 0. -/
def transaction : Transaction :=
  { head := .h0, write := false, page := 0, half := false, toggle := false, frames := [], discard := false }

/-- A good reply to it: header, sixteen bytes 0, and the check frame. -/
def reply : List Frame :=
  { marker := false, data := 0x40#8 } :: List.replicate 16 { marker := false, data := 0 } ++
    [{ marker := false, data := 0xC0#8 }]

/-- AttachBeginsIdentification, RemovalMakesTheToolAbsent and ToolBusServesTheNextHead. -/
theorem witness_ToolStatements :
    (inDevice .running).toolPresent .h0 = false ∧
      (withInputs (fun i => { i with toolPresent := i.toolPresent.set .h0 (Line.settle true) })
        (working .seek)).toolPresent .h0 = true ∧
      ((working .zoneWait).head .h0).state.beforeStroke = true ∧
      ((inDevice .running).head .h0).state.beforeStroke = false ∧
      (let s := modTool .h2 (fun t => { t with request := .wearWrite }) (inDevice .running);
        s.toolBus.transaction = none ∧ s.toolBus.idleNeeded ≤ s.toolBus.idle + 2000 ∧
          (s.tool .h2).request ≠ .none ∧ (s.tool .h0).request = .none ∧ (s.tool .h1).request = .none) := by
  decide

/-- A reply that is good bit by bit, and one whose toggle echo is another. -/
theorem witness_GoodReply : goodReply transaction reply ∧ ¬goodReply { transaction with toggle := true } reply := by
  constructor <;> simp [goodReply, reply, transaction]

/-- Calibration and wear blocks that pass and that fail, at the last tine a block holds. -/
theorem witness_CalibrationAndWear :
    let t := { Tool.reset with tines := 5 }
    (t.identified (.cal 1) { more := true, data := [1, 0, 2, 0] }).request = .identify .wear ∧
      (t.identified (.cal 0) { more := true, data := List.replicate 16 1 }).request = .identify (.cal 1) ∧
      (t.identified (.cal 1) { more := true, data := [0, 0, 2, 0] }).state = .fault ∧
      (t.identified (.cal 1) { more := false, data := [1, 0, 2, 0] }).state = .fault ∧
      (t.identified .wear { more := false, data := [7, 0, 0, 0, 7] }).worn = true ∧
      (t.identified .wear { more := false, data := [6, 0, 0, 0, 7] }).worn = false ∧
      (t.identified .wear { more := true, data := [] }).state = .fault := by decide

/-- SuccessfulReplyFlipsTheToggle and the clauses of FailedTransactions. -/
theorem witness_Replies :
    transaction.succeeds reply = true ∧ transaction.succeeds [⟨false, 0⟩, ⟨false, 0⟩] = false ∧
      transaction.discard = false ∧ { transaction with discard := true }.discard = true ∧
      ({ Tool.reset with retries := 3 } : Tool).attemptFailed.state = .fault ∧
      ({ Tool.reset with retries := 3, identifyAfter := true } : Tool).attemptFailed.request
        = .identify .base ∧
      ({ inDevice .running with
          toolBus := { ToolBus.reset with transaction := some transaction } } : State).toolBus.transaction
        = some transaction ∧
      (inDevice .running).toolBus.transaction = none ∧ (inDevice .running).toolBus.idleNeeded = 2000 := by
  decide

/-- Base blocks at the edges of R107: 1 tine on 3 pages, 32 tines on 6 pages; none at 0 and at 33 tines. -/
theorem witness_BaseBlockIsChecked :
    baseOk { more := true, data := [1, 0, 1, 3] } = true ∧
      baseOk { more := true, data := [1, 0, 32, 6] } = true ∧
      baseOk { more := true, data := [1, 0, 0, 2] } = false ∧
      baseOk { more := true, data := [1, 0, 33, 7] } = false ∧
      baseOk { more := false, data := [1, 0, 1, 3] } = false := by decide

/-! ## Witnesses: PREPARE and the start -/

theorem witness_TakingBeginsPrepare :
    let s := modReader (fun r => { r with taken := [order], queues := r.queues.set .h0 [order.age] })
      (modHead .h0 (fun m => { m with state := .idle }) (inDevice .running))
    s.control.device = .running ∧ s.control.aborting = false ∧ (s.head .h0).state = .idle ∧
      s.reader.front .h0 = some order ∧ order.head = .h0 ∧ order.ganged = false := by decide

theorem witness_TakingAGangedOrder :
    let o := { order with ganged := true }
    let s := modReader (fun r =>
        { r with taken := [o], queues := (r.queues.set .h0 [o.age]).set .h1 [o.age] })
      (eachHead (fun h => modHead h (fun m => { m with state := .idle })) [.h0, .h1] (inDevice .running))
    s.reader.front .h0 = some o ∧ s.reader.front .h1 = some o ∧ (s.head .h1).state = .idle ∧
      HeadId.h0 = HeadId.h0.primary := by decide

theorem witness_WithdrawReadsInPrepare :
    inFlightFor (.activeWrite .h0) (withBus (.activeWrite .h0) (working .prepare)) ∧
      inFlightFor (.withdrawRead .h0) (withBus (.withdrawRead .h0) (working .prepare)) ∧
      inFlightFor (.nudgeRead .h0) (withBus (.nudgeRead .h0) (working .zoneWait)) ∧
      ((working .prepare).head .h0).current = some order ∧
      ((working .prepare).head .h0).outcomeFixed = false ∧
      ((working .prepare).head .h0).writeFailed = false :=
  ⟨withBus_inFlight .., withBus_inFlight .., withBus_inFlight .., by decide, by decide, by decide⟩

/-- Head 0 in PREPARE with its withdraw read in flight, its tool in a state with its tare valid or not, its
ram at the top or not. -/
def preparing (tool : ToolState) (valid top : Bool) : State :=
  withBus (.withdrawRead .h0) (withInputs (fun i => { i with ramTop := Four.all (Line.settle top) })
    (modTool .h0 (fun t => { t with state := tool }) (modSense .h0 (fun n => { n with tareValid := valid })
      (working .prepare))))

/-- A tool in IDENTIFY, a tool that fails step 3, a ram away from its top, a tare due, and none due; a worn tool,
and one whose tare period has run out. -/
theorem witness_WithdrawReadLeadsOn :
    ((preparing .identify true true).tool .h0).state = .identify ∧
      toolRefusal order [(preparing .absent true true).tool .h0] = some .toolAbsent ∧
      toolRefusal order [{ Tool.reset with state := .ready, worn := true }] = some .toolWorn ∧
      (toolRefusal order [(preparing .ready true false).tool .h0] = none ∧
        (preparing .ready true false).ramTop .h0 = false) ∧
      ((preparing .ready false true).ramTop .h0 = true ∧ dueForTare (preparing .ready false true) .h0) ∧
      ¬dueForTare (preparing .ready true true) .h0 ∧
      dueForTare (modSense .h0 (fun n => { n with strokesSinceTare := 1 }) (preparing .ready true true)) .h0 := by
  unfold dueForTare
  decide

/-- A map of one pin whose class has no envelope by default. -/
def mapHeader : MapHeader :=
  { id := 0, pinCount := 1, columns := 1, rows := 1, seatMin := 0, seatMax := 100,
    classDefault := List.replicate 16 255 }

/-- A build whose one entry is awaited. -/
def build : Build := { Build.start with stage := .entries 8192, header := some mapHeader }

/-- Good and bad reads of each stage of a build, at the edges of R1 to R4. -/
theorem witness_PlanReadsAreChecked :
    ((badSlot 65536 32 0 ∧ badSlot 65536 32 8224 ∧ badSlot 65536 32 65536) ∧ ¬badSlot 65536 32 65472) ∧
      (let d := [0, 0, 1, 0, 64, 64, 0, 0] ++ put32 7 ++ put32 7 ++ List.replicate 15 255 ++ [63]
       goodMapHeader 65536 order 8192 d ∧ ¬goodMapHeader 65536 order 8192 (d.set 4 65) ∧
         ¬goodMapHeader 65536 order 8192 (d.set 16 64) ∧ ¬goodMapHeader 65536 order 8192 (d.set 2 9) ∧
         ¬goodMapHeader 65536 order 65504 d) ∧
      (let m := { mapHeader with pinCount := 2, columns := 2 }
       let d := [0, 0, 15, 0] ++ put32 20000 ++ [0, 1, 0, 0] ++ put32 0
       goodEntries m d ∧ ¬goodEntries m (d.set 1 1) ∧ ¬goodEntries m (d.set 9 2) ∧ ¬goodEntries m (d.set 2 16)) ∧
      (let d := [5, 8, 0, 0] ++ zeros 12
       goodEnvelopeHeader 65536 5 8192 d ∧ ¬goodEnvelopeHeader 65536 5 8192 (d.set 1 9) ∧
         ¬goodEnvelopeHeader 65536 4 8192 d ∧ ¬goodEnvelopeHeader 65536 5 65408 d) ∧
      (let d := put16 0 ++ put16 1 ++ put32 7 ++ put32 7 ++ [1, 0, 0, 0]
       goodBands [5, 1] d ∧ ¬goodBands [5, 1] (d.set 2 0) ∧ ¬goodBands [5, 1] (d.set 12 2)) := by
  refine ⟨?_, ?_, ?_, ?_, ?_⟩
  · unfold badSlot; decide
  · unfold goodMapHeader; decide
  · simp only [goodEntries]; refine ⟨?_, ?_, ?_, ?_⟩ <;> decide
  · unfold goodEnvelopeHeader; decide
  · unfold goodBands; decide

/-- Builds with classes left: one whose envelope must be read, one with no envelope for its class. -/
theorem witness_EnvelopesAreChosen :
    (let b := { build with stage := .entries 8192, classes := [3] }
     let m := { mapHeader with classDefault := List.replicate 16 5 }
     b.classes = [] ++ 3 :: [] ∧ chooses order m 3 (some 5) ∧ (∀ e ∈ b.envelopes, e.id ≠ 5)) ∧
      (∀ k ∈ ({ build with classes := [3] } : Build).classes,
        copied order mapHeader ({ build with classes := [3] } : Build).envelopes k) := by
  have unmapped : ∀ cls id, ¬remapsTo order cls id := fun _ _ ⟨_, below, _⟩ => absurd below (Nat.not_lt_zero _)
  refine ⟨⟨rfl, .inr ⟨unmapped 3, .inr ⟨unmapped 16, rfl⟩⟩, fun _ m => absurd m List.not_mem_nil⟩, ?_⟩
  rintro k m id (⟨_, e, _⟩ | ⟨_, ⟨_, e, _⟩ | ⟨_, e⟩⟩)
  · exact absurd e (unmapped _ _)
  · exact absurd e (unmapped _ _)
  · simp only [List.mem_cons, List.not_mem_nil, or_false] at m
    subst m
    exact nomatch (show some id = none from e)

/-- Two pins of one tine closer than the group spacing are one group, and two that lie as far apart are two
(R13). -/
theorem test_groups_are_cut :
    let c := { setup with groupSpacing := 20 }
    let e := fun engage => ({ row := 0, column := 0, cls := 0, engage := engage } : PinEntry)
    let cut := fun far => (makePlan c order 1 0 mapHeader [e far, e 0] [(0, none)] []).map
      (fun p => p.channels.map (fun ch => ch.groups.map Group.pins))
    cut 19 = some [[[1, 0]]] ∧ cut 20 = some [[[1], [0]]] ∧
      makePlan c order 0 0 mapHeader [e 0] [(0, none)] [] = none := by decide

theorem witness_PlanReadsBuildThePlan :
    (let s := setPlan .h0 (.loading build) (withBus (.planRead .h0) (working .prepare));
      inFlightFor (.planRead .h0) s ∧ (s.head .h0).state = .prepare ∧
        (s.head .h0).current = some order ∧ s.plan .h0 = .loading build ∧
        (s.head .h0).outcomeFixed = false ∧ (s.head .h0).writeFailed = false) ∧
      (∃ why, build.advance setup order 1 0 (List.replicate 8 0xFF) = .fail why) ∧
      (∃ b off len, Build.start.advance setup order 1 0 [0, 0x20, 0, 0] = .read b off len) ∧
      ∃ p, build.advance setup order 1 0 (List.replicate 8 0) = .complete p :=
  ⟨⟨⟨_, _, rfl, rfl, rfl, rfl⟩, by decide⟩, ⟨_, rfl⟩, ⟨_, _, _, rfl⟩, ⟨_, rfl⟩⟩

/-- Intervals cut at both ends of the board, and a tool in FAULT at the entry to ZONE_WAIT. -/
theorem witness_ZoneWaitEntry :
    intervalLow 5 4 = 0 ∧ intervalLow 5 5 = 0 ∧ intervalHigh 5 65530 = 65535 ∧
      intervalHigh 5 65531 = 65535 ∧ intervalHigh 5 65529 = 65534 ∧
      (working .prepare).unit .h0 = [.h0] ∧ ((working .prepare).tool .h0).state ≠ .fault ∧
      ((modTool .h0 Tool.toFault (working .prepare)).tool .h0).state = .fault := by decide

theorem witness_SingleHeadPlacing :
    order.ganged = false ∧ placeColumn order 4 0 3 = some (.h0, 3) ∧ placeColumn order 4 0 4 = none := by
  decide

theorem witness_StartReadEntersApproach :
    (let s := withBus (.startRead .h0) (waiting .auto false true);
      inFlightFor (.startRead .h0) s ∧ (s.head .h0).state = .startWait ∧
        (s.head .h0).current = some order ∧ s.leads .h0 = true ∧ s.guardOpen = false ∧
        (s.unit .h0).all s.posReady = true ∧ (s.head .h0).posLost = false ∧ (s.head .h0).releaseSeen = false ∧
        (s.head .h0).outcomeFixed = false ∧ (s.head .h0).writeFailed = false) ∧
      (waiting .auto true true).guardOpen = true ∧
      ((waiting .auto false false).unit .h0).all (waiting .auto false false).posReady = false ∧
      (let m := ((modHead .h0 (fun m => { m with startRead := some true, releaseSeen := true })
          (waiting .operator false true)).head .h0);
        m.startRead = some true ∧ m.releaseSeen = true) ∧
      (let s := withBus (.startRead .h0)
          (modHead .h0 (fun m => { m with startRead := some false, posLost := true }) (waiting .auto false true));
        inFlightFor (.startRead .h0) s ∧ (s.head .h0).posLost = true ∧ s.guardOpen = false) :=
  ⟨⟨⟨_, _, rfl, rfl, rfl, rfl⟩, by decide⟩, by decide, by decide, by decide, ⟨_, _, rfl, rfl, rfl, rfl⟩, by decide⟩

/-! ## Witnesses: board zones -/

/-- The three clauses of ClaimsAreAskedWithdrawnAndReleased, at intervals that touch and that do not. -/
theorem witness_Claims :
    let s := { inDevice .running with
      claims := ⟨.held 0 9, .empty, .waiting 5 12 3, .empty⟩
      claimMsgs := ⟨[.release], [.request 10 20 4], [.withdraw], [.request 9 20 5]⟩ }
    s.claimMsgs.get .h0 = .release :: [] ∧ s.claimMsgs.get .h1 = .request 10 20 4 :: [] ∧
      s.claimMsgs.get .h2 = .withdraw :: [] ∧ s.claimMsgs.get .h3 = .request 9 20 5 :: [] ∧
      overlap 10 20 0 9 = false ∧ overlap 9 20 0 9 = true := by decide

/-- A release after which the older of two overlapping entries is granted and the younger waits on. -/
theorem witness_PassGrantsTheOldest :
    let s := { inDevice .running with
      claims := ⟨.held 0 9, .waiting 5 12 8, .waiting 12 20 3, .empty⟩, claimMsgs := ⟨[.release], [], [], []⟩ }
    (match exec (.claimRelease .h0) s with
      | .next t => decide (t.claims = ⟨.empty, .waiting 5 12 8, .held 12 20, .empty⟩)
      | _ => false) = true := by decide

theorem witness_GrantEntersStartWait :
    let s := { modHead .h0 (fun m => { m with claim := .requested }) (working .zoneWait) with
      grants := ⟨some 0, none, none, none⟩ }
    s.grants.get .h0 = some 0 ∧ (s.head .h0).state = .zoneWait ∧ (s.head .h0).claim = .requested ∧
      (s.head .h0).current.map (·.age) = some 0 := by decide

/-! ## Witnesses: results and header -/

theorem witness_TraceAndClosingWrites :
    inFlightFor (.traceWrite .h0) (withBus (.traceWrite .h0) (working .press)) ∧
      ((working .press).head .h0).current = some order ∧ ((working .press).head .h0).closing = none ∧
      ((working .press).head .h0).writeFailed = false ∧
      inFlightFor (.outcomeWrite .h0)
        (withBus (.outcomeWrite .h0) (writing .dwell (.entry 0) [entry, entry])) ∧
      ((writing .dwell (.entry 0) [entry, entry]).head .h0).closing
        = some (closing (.entry 0) [entry, entry]) ∧
      (closing (.entry 0) [entry, entry]).result.entries[1]? = some entry ∧
      (closing (.entry 1) [entry, entry]).result.entries[2]? = none ∧
      ((writing .dwell (.entry 1) [entry, entry]).head .h0).trace.rows = [] ∧
      (closing .traceFlight [entry]).stage = .traceFlight ∧ (closing .rows []).stage = .rows ∧
      ((modHead .h0 (fun m => { m with trace := { m.trace with rows := [{ depth := 1, forces := [] }] } })
        (writing .dwell (.entry 1) [entry, entry])).head .h0).trace.rows ≠ [] ∧
      (closing .fields []).stage = .fields :=
  ⟨withBus_inFlight .., by decide, by decide, by decide, withBus_inFlight .., by decide⟩

/-- A row that fits the trace area and the buffer exactly, and one that does not fit either; its bytes. -/
theorem witness_TraceRows :
    let o := { order with traceArea := 512, traceCapacity := 520 }
    let row : TraceRow := { depth := -1, forces := [some 2, none] }
    let w : Trace := { rows := List.replicate 63 row, inFlight := 0, accepted := 64, full := false, rowSize := 8 }
    (w.accept o row).accepted = 65 ∧ (w.accept o row).full = false ∧
      ({ w with accepted := 65 }.accept o row).full = true ∧
      ({ w with rows := List.replicate 64 row }.accept o row).full = true ∧
      { w with full := true }.accept o row = { w with full := true } ∧
      w.accept { o with traceArea := 0 } row = w ∧
      row.bytes = [255, 255, 255, 255, 2, 0, 0, 0, 0, 0, 0, 0x80] := by decide

/-- Outcomes with and without a stroke. -/
theorem witness_DeviceFields :
    (closing .fields []).stroke = true ∧ { closing .fields [] with stroke := false }.stroke = false ∧
      (State.reset.fieldsOf .h0 { closing .fields [] with
        stroke := false, result := HandOver.bare .withdrawn .none }).withdrawSeen = true := by decide

theorem witness_DoneIsReportedAndRecorded :
    inFlightFor (.outcomeWrite .h0) (withBus (.outcomeWrite .h0) (writing .dwell .done [])) ∧
      ((writing .dwell .done []).head .h0).closing = some (closing .done []) ∧
      (writing .dwell .done []).leads .h0 = true ∧ (writing .dwell .done []).ramTop .h0 = false ∧
      ((writing .halted .done []).head .h0).state = .halted ∧
      ((writing .prepare .done []).head .h0).state.beforeStroke = true :=
  ⟨withBus_inFlight .., by decide⟩

theorem witness_MarkedHeaderPartIsWrittenAgain :
    let s := { withBus (.header .chain) (inDevice .running) with
      rewrite := { RewriteMarks.reset with chain := true } }
    OneInFlight s ∧ (∃ r rest, s.bus = r :: rest ∧ r.granted = true ∧ r.fate = .live ∧
      r.access = .header .chain) ∧ s.rewrite.marked .chain = true ∧ s.rewrite.marked .device = false ∧
      s.control.area ≠ none :=
  ⟨fun r m => absurd m (List.not_mem_nil (a := r)), ⟨_, _, rfl, rfl, rfl, rfl⟩, by decide⟩

/-- A part asked for with no area taken, with none outstanding, beside one that waits and beside one in flight;
values that change and values that stay. -/
theorem witness_PartsAreAskedFor :
    let p := HeaderPart.chain
    let mine (r : BusReq) : Prop := r.access = .header p ∧ r.fate = .live
    let waiting := (withBus (.header p) State.reset).bus.map (fun r => { r with granted := false })
    let waits := { inDevice .running with bus := waiting }
    State.reset.control.area = none ∧ (inDevice .running).control.area = some { base := 0x10000, size := 65536 } ∧
      (∀ r ∈ (inDevice .running).bus, ¬mine r) ∧
      ((∃ r ∈ waits.bus, mine r) ∧ ∀ r ∈ waits.bus, mine r → r.granted = false) ∧
      (let s := withBus (.header p) (inDevice .running)
       (∃ r ∈ s.bus, mine r) ∧ ∀ r ∈ s.bus, mine r → r.granted = true) ∧
      (let t := Tool.reset
       ({ t with state := .ready } : Tool).state ≠ t.state ∧ { t with worn := true }.worn = true ∧
         t.worn = false) := by
  decide

/-- A chain part asked for in flight is marked, and its next grant takes the reader's state. -/
theorem test_chain_part_at_its_grant :
    let s := modReader (fun r => { r with taken := [order], completed := 3 }) (inDevice .running)
    let r : BusReq := { access := .header .chain, addr := 0, len := 0, data := [], granted := false,
                        fate := .live, age := 0 }
    (s.grantOf r).data = [0, 0, 0, 0] ++ put32 s.reader.anchor ++ put32 1152 ++ put32 3 ++ zeros 16 ∧
      (requestPart .chain (withBus (.header .chain) s)).rewrite.marked .chain = true := by decide

/-! ## Witnesses: the order chain -/

/-- A reader with an operation under way, its access in flight. -/
def chain (a : Access) (op : ReaderOp) : State :=
  withBus a (modReader (fun r => { r with state := .reading, anchor := 1024, op := op }) (inDevice .running))

theorem witness_LinkReadLeadsOn :
    inFlightFor .linkRead (chain .linkRead .link) ∧
      (chain .linkRead .link).reader.pendingNudge = false ∧
      (¬badLink (chain .linkRead .link) 512 ∧ ¬badLink (chain .linkRead .link) 65408) ∧
      badLink (chain .linkRead .link) 448 ∧ badLink (chain .linkRead .link) 65472 ∧
      badLink (chain .linkRead .link) 1024 ∧ badLink (chain .linkRead .link) 0xFFFFFFFF ∧
      badLink (modReader (fun r => { r with taken := [order] }) (chain .linkRead .link)) 1152 ∧
      badLink (modReader (fun r => { r with heldSlot := some order }) (chain .linkRead .link)) 1152 := by
  have none_held : ∀ link, ¬∃ o : Order, (chain .linkRead .link).reader.heldSlot = some o ∧ o.record = link := by
    rintro _ ⟨_, e, _⟩
    cases e
  refine ⟨withBus_inFlight .., by decide, ⟨?_, ?_⟩, .inr (.inl (by decide)), .inr (.inr (.inl (by decide))),
    .inr (.inr (.inr (.inl rfl))), .inl (by decide),
    .inr (.inr (.inr (.inr (.inl ⟨order, by decide, rfl⟩)))),
    .inr (.inr (.inr (.inr (.inr ⟨order, rfl, rfl⟩))))⟩
  all_goals
    rintro (e | e | e | e | e | e)
    all_goals first | exact none_held _ e | revert e; decide

/-- A record that passes checks 1 to 12, laid out from section 11.4. -/
def goodRecord : List Byte :=
  put32 0 ++ [1, 1, 0, 0] ++ put16 7 ++ [0, 0, 0, 0, 0, 0] ++ zeros 20 ++ put16 10 ++ put16 20 ++
    put32 60 ++ put32 300 ++ put32 400 ++ put32 150 ++ put32 100 ++ put32 40 ++ put32 600 ++ put16 20000 ++
    put16 3000 ++ put16 1500 ++ put16 25000 ++ [5, 0] ++ put16 3 ++ put32 16384 ++ put16 16 ++ zeros 10 ++
    zeros 32

set_option maxRecDepth 20000 in
/-- Turns, and the record with fields at the edges of what the checks let pass. -/
theorem witness_FetchedOrderIsChecked :
    inFlightFor .orderFetch (chain .orderFetch (.fetch 1152)) ∧
      (chain .orderFetch (.fetch 1152)).reader.op = .fetch 1152 ∧
      recordTurn (List.replicate 128 0) = 0 ∧ recordTurn (List.replicate 128 1) = 1 ∧
      goodRecord.length = 128 ∧ recordRefusal setup goodRecord = none ∧
      ([(10, [3, 0]), (10, [2, 1]), (12, [1, 1, 2]), (6, [1]), (18, [8]), (20, [16, 63]), (38, put16 10),
        (48, put32 300),
        (68, put16 100), (74, put16 50000), (76, [64]), (78, put16 2000), (80, put32 65280), (88, put32 512),
        (15, [63])].all (fun e => recordRefusal setup (patched goodRecord e.1 e.2) = none)) = true :=
  ⟨withBus_inFlight .., by decide, by decide, by decide, by decide, by decide, by decide⟩

set_option maxRecDepth 20000 in
/-- One record that each of checks 1 to 12 refuses, and more where a check has several parts. -/
theorem witness_FetchedOrderIsChecked_refused :
    ([(10, [4]), (11, [2]), (10, [1, 1]), (12, [2]), (14, [3]), (6, [2]), (18, [9]), (18, [1, 0, 17, 0]),
        (18, [1, 0, 0, 64]), (38, put16 9), (48, put32 299), (52, put32 401), (68, put16 99),
        (72, put16 50001), (76, [0]),
        (76, [65]), (78, put16 2001), (64, put32 0), (80, put32 16392), (80, put32 496), (84, put16 0),
        (80, put32 65296), (88, put32 520), (88, put32 65520 ++ put32 17), (15, [64])].map
        (fun e => recordRefusal setup (patched goodRecord e.1 e.2))) =
      [some .badHead, some .badField, some .badHead] ++ List.replicate 22 (some .badField) ∧
      recordRefusal { setup with gangEnable := 1 } (patched goodRecord 10 [2, 1]) = some .gangOff ∧
      recordRefusal { setup with headMask := 7 } (patched goodRecord 10 [2, 1]) = some .gangOff ∧
      recordRefusal { setup with headMask := 14 } (patched goodRecord 10 [0]) = some .badHead := by decide

/-- Slots at the edges of check 13: 0, not on a multiple of 64, the last with room for the header. -/
theorem witness_SlotOfAPinMap :
    inFlightFor .slotRead (chain .slotRead (.slot order false)) ∧
      (chain .slotRead (.slot order false)).reader.op = .slot order false ∧ u32At [0, 0, 0, 0] 0 = 0 ∧
      u32At [32, 0, 0, 0] 0 % 64 ≠ 0 ∧ setup.areaSize < u32At [0, 0, 1, 0] 0 + 32 ∧
      u32At [0xC0, 0xFF, 0, 0] 0 % 64 = 0 ∧ u32At [0xC0, 0xFF, 0, 0] 0 + 32 ≤ setup.areaSize :=
  ⟨withBus_inFlight .., by decide⟩

/-- Pin counts at the edges of R145 and a capacity below the count. -/
theorem witness_ValidOrderIsTakenHeldOrEnded :
    inFlightFor .mapRead (chain .mapRead (.mapHeader order false)) ∧
      (chain .mapRead (.mapHeader order false)).reader.op = .mapHeader order false ∧
      u16At [0, 0, 1, 0] 2 = 1 ∧ u16At [0, 0, 0, 4] 2 = 1024 ∧ ¬(1 ≤ u16At [0, 0, 0, 0] 2) ∧
      ¬(u16At [0, 0, 1, 4] 2 ≤ 1024) ∧ order.resultCapacity < 9 ∧ 8 ≤ order.resultCapacity ∧
      (chain .mapRead (.mapHeader order false)).reader.room order = true ∧
      (modReader (fun r => { r with queues := r.queues.set .h0 [1, 2, 3, 4] })
        (chain .mapRead (.mapHeader order false))).reader.room order = false ∧
      inFlightFor .heldRead
        (modReader (fun r => { r with heldSlot := some order }) (chain .heldRead .heldRead)) ∧
      (modReader (fun r => { r with heldSlot := some order }) (chain .heldRead .heldRead)).reader.heldSlot
        = some order :=
  ⟨withBus_inFlight .., by decide, by decide, by decide, by decide, by decide, by decide, by decide,
    by decide, by decide, ⟨_, _, rfl, rfl, rfl, rfl⟩, rfl⟩

theorem witness_ChainWritesDisposeOfOrders :
    inFlightFor .takenWrite (chain .takenWrite (.taken order)) ∧
      (chain .takenWrite (.taken order)).reader.op = .taken order ∧ order.ganged = false ∧
      inFlightFor .rejectWrite (chain .rejectWrite (.rejectFields 1152)) ∧
      inFlightFor .rejectWrite (chain .rejectWrite (.rejectDone 1152)) ∧
      (let s := modReader (fun r => { r with taken := [order] }) (chain .stopWrite (.stopFields 0));
        inFlightFor .stopWrite s ∧ s.reader.op = .stopFields order.age ∧
          s.reader.find order.age = some order) ∧
      inFlightFor .stopWrite (chain .stopWrite (.stopDone 0)) :=
  ⟨withBus_inFlight .., by decide, by decide, withBus_inFlight .., withBus_inFlight ..,
    ⟨⟨_, _, rfl, rfl, rfl, rfl⟩, by decide, by decide⟩, withBus_inFlight ..⟩

theorem witness_PollTimerAndReadTimeout :
    (let s := modReader (fun r => { r with state := .waiting, poll := some 0 }) (inDevice .running);
      s.reader.state = .waiting ∧ s.reader.poll = some 0) ∧
      inFlightFor .setupRead (withBus .setupRead (inDevice .starting)) ∧
      inFlightFor .slotRead (chain .slotRead (.slot order false)) ∧
      inFlightFor (.planRead .h0) (withBus (.planRead .h0) (working .prepare)) :=
  ⟨by decide, withBus_inFlight .., withBus_inFlight .., withBus_inFlight ..⟩

end Sys2Proof.Machine.Tests
end

/-! ## Placing of logical columns (R10, R12) -/

namespace Sys2Proof.Machine

/-- R10: the order's own head takes every logical column that it has a tine for, ganged or not. -/
theorem placeColumn_of_lt (o : Order) {t0 column : Nat} (t1 : Nat) (below : column < t0) :
    placeColumn o t0 t1 column = some (o.head, column) :=
  if_pos below

/-- R12: only a gang has a second tool to place a column on that lies beyond the first. -/
theorem placeColumn_eq_none_of_not_ganged {o : Order} {t0 column : Nat} (t1 : Nat)
    (single : o.ganged = false) (beyond : ¬ column < t0) : placeColumn o t0 t1 column = none := by
  simp [placeColumn, single, beyond]

/-- Settles O49, by whether the order's own head has a tine for the column. -/
theorem singleHeadPlacing : Obligations.SingleHeadPlacing := by
  intro o t0 t1 column single
  split
  case isTrue below => exact placeColumn_of_lt o t1 below
  case isFalse beyond => exact placeColumn_eq_none_of_not_ganged t1 single beyond

end Sys2Proof.Machine

/-! ## What the bus and the shown changes leave of the heads and the plans -/

namespace Sys2Proof.Machine

theorem BusTouched.head {s t : State} (touched : BusTouched s t) (k : HeadId) : t.head k = s.head k := by
  obtain ⟨b, r, rfl⟩ := touched
  rfl

theorem BusTouched.plan {s t : State} (touched : BusTouched s t) (k : HeadId) : t.plan k = s.plan k := by
  obtain ⟨b, r, rfl⟩ := touched
  rfl

@[simp] theorem putState_heads (st : HeadState) (h : HeadId) (s : State) :
    (putState st h s).heads = s.heads.set h { s.heads.get h with state := st } := by
  obtain ⟨b, r, e⟩ := putState_eq st h s
  rw [e]

@[simp] theorem putState_plans (st : HeadState) (h : HeadId) (s : State) :
    (putState st h s).plans = s.plans := by
  obtain ⟨b, r, e⟩ := putState_eq st h s
  rw [e]

@[simp] theorem putHaltReason_heads (why : Reason) (h : HeadId) (s : State) :
    (putHaltReason why h s).heads = s.heads.set h { s.heads.get h with lastHalt := why } := by
  obtain ⟨b, r, e⟩ := putHaltReason_eq why h s
  rw [e]

@[simp] theorem putHaltReason_plans (why : Reason) (h : HeadId) (s : State) :
    (putHaltReason why h s).plans = s.plans := by
  obtain ⟨b, r, e⟩ := putHaltReason_eq why h s
  rw [e]

/-- Every head belongs to its own unit, the companion of a gang too. -/
theorem mem_unit_self (s : State) (x : HeadId) : x ∈ s.unit x := by
  unfold State.unit
  split
  · simpa using x.primary_or_companion
  · exact List.mem_singleton.mpr rfl

end Sys2Proof.Machine

/-! ## The writing that closes an order, as the head notes it (R66, R161) -/

namespace Sys2Proof.Machine

/-- From step 2 on, the head notes the writing at some stage; all else is a request at the bus. -/
theorem putEntry_notes (i : Nat) (x : HeadId) (c : Closing) (s : State) :
    ∃ stage, BusTouched (setClosing x { c with stage := stage } s) (putEntry i x c s) := by
  unfold putEntry putRows
  split
  · dsimp only
    split
    · exact ⟨.fields, requestWrite_touches ..⟩
    · exact ⟨.rows, requestWrite_touches ..⟩
  · exact ⟨.entry i, requestWrite_touches ..⟩

/-- The writing begins at some stage, with the outcome fixed; all else is a request at the bus. -/
theorem beginClosing_notes (x : HeadId) (c : Closing) (s : State) :
    ∃ stage, BusTouched
      (setClosing x { c with stage := stage } (modHead x (fun m => { m with outcomeFixed := true }) s))
      (beginClosing x c s) := by
  unfold beginClosing
  dsimp only
  split
  · exact ⟨.fields, requestWrite_touches ..⟩
  · split
    · exact putEntry_notes ..
    · exact ⟨.traceFlight, .rfl⟩

theorem beginClosing_closing (x : HeadId) (c : Closing) (s : State) :
    ∃ stage, ((beginClosing x c s).head x).closing = some { c with stage := stage } := by
  obtain ⟨stage, touched⟩ := beginClosing_notes x c s
  exact ⟨stage, by simp [touched.head, setClosing]⟩

theorem beginClosing_plan (x : HeadId) (c : Closing) (s : State) (k : HeadId) :
    (beginClosing x c s).plan k = s.plan k := by
  obtain ⟨stage, touched⟩ := beginClosing_notes x c s
  exact touched.plan k

end Sys2Proof.Machine

/-! ## Halts: the motion stopped (R49, R69) -/

namespace Sys2Proof.Machine

/-- A sequencer as the entry to HALTED leaves it: on its brake, its guard and dwell timer stopped; the order and
what has been handed over, fixed and written of it stay. -/
def Head.haltedFor (why : Reason) (m : Head) : Head :=
  { (m.drive Drive.still).disarm with
    state := .halted, lastHalt := why, dwell := none, startRead := none, releaseSeen := false,
    posLost := false }

@[simp] theorem haltedFor_current (why : Reason) (m : Head) : (m.haltedFor why).current = m.current := rfl
@[simp] theorem haltedFor_outcomeFixed (why : Reason) (m : Head) :
    (m.haltedFor why).outcomeFixed = m.outcomeFixed := rfl
@[simp] theorem haltedFor_writeFailed (why : Reason) (m : Head) :
    (m.haltedFor why).writeFailed = m.writeFailed := rfl
@[simp] theorem haltedFor_handed (why : Reason) (m : Head) : (m.haltedFor why).handed = m.handed := rfl
@[simp] theorem haltedFor_closing (why : Reason) (m : Head) : (m.haltedFor why).closing = m.closing := rfl

theorem haltHead_heads (why : Reason) (h : HeadId) (s : State) :
    (haltHead why h s).heads = s.heads.set h ((s.heads.get h).haltedFor why) := by
  refine Four.eq_of_get fun k => ?_
  by_cases own : k = h
  · subst own
    simp [haltHead, Head.haltedFor, Head.drive, Head.disarm]
  · simp [haltHead, own]

@[simp] theorem haltHead_plans (why : Reason) (h : HeadId) (s : State) :
    (haltHead why h s).plans = s.plans := by
  simp [haltHead]

/-- Halting heads in turn halts those of the list and no other. -/
theorem head_eachHead_haltHead (why : Reason) :
    ∀ (hs : List HeadId) (s : State), hs.Nodup → ∀ k,
      (eachHead (haltHead why) hs s).head k =
        if k ∈ hs then (s.head k).haltedFor why else s.head k
  | [], s, _, k => by simp [eachHead]
  | h :: hs, s, nd, k => by
    obtain ⟨fresh, nd⟩ := List.nodup_cons.mp nd
    rw [eachHead, head_eachHead_haltHead why hs _ nd k]
    by_cases own : k = h
    · subst own
      simp [fresh, State.head, haltHead_heads]
    · simp [own, State.head, haltHead_heads]

/-- What a halt does beside telling the evaluator and closing the order. -/
def haltMotion (why : Reason) (x : HeadId) (s : State) : State :=
  raise .halt (eachHead (haltHead why) (s.unit x) (haltContact x s))

@[simp] theorem head_haltContact (x : HeadId) (s : State) (k : HeadId) :
    (haltContact x s).head k = s.head k := by
  unfold haltContact
  split <;> rfl

@[simp] theorem plan_haltContact (x : HeadId) (s : State) (k : HeadId) :
    (haltContact x s).plan k = s.plan k := by
  unfold haltContact
  split <;> rfl

theorem head_haltMotion_self (why : Reason) (x : HeadId) (s : State) :
    (haltMotion why x s).head x = (s.head x).haltedFor why := by
  simp [haltMotion, head_eachHead_haltHead why _ _ (unit_nodup s x), mem_unit_self]

theorem plan_haltMotion (why : Reason) (x : HeadId) (s : State) (k : HeadId) :
    (haltMotion why x s).plan k = s.plan k := by
  have kept : (eachHead (haltHead why) (s.unit x) (haltContact x s)).plans = (haltContact x s).plans :=
    eachHead_keeps (P := fun t => t.plans = (haltContact x s).plans)
      (fun h t same => (haltHead_plans why h t).trans same) _ _ rfl
  calc (haltMotion why x s).plan k
      = (haltContact x s).plan k := congrArg (Four.get · k) kept
    _ = s.plan k := plan_haltContact x s k

end Sys2Proof.Machine

/-! ## Halts: the evaluator and the outcome (R42, R43, R69) -/

namespace Sys2Proof.Machine

/-- A CLOSED plan takes no notice of a halt (R43). -/
theorem haltPlan_of_closed {x : HeadId} {s : State} {p : Plan} (why : Reason)
    (built : s.plan x = .built p) (closed : p.phase = .closed) : haltPlan why x s = s := by
  simp [haltPlan, built, closed]

/-- With the plan CLOSED a halt stops the motion and deals with the outcome. -/
theorem haltUnit_of_closed {x : HeadId} {s : State} {p : Plan} (why : Reason)
    (built : s.plan x = .built p) (closed : p.phase = .closed) :
    haltUnit why x s = haltOutcome why x (haltMotion why x s) := by
  have unheard : haltPlan why x (haltContact x s) = haltContact x s :=
    haltPlan_of_closed why ((plan_haltContact x s x).trans built) closed
  rw [haltUnit, haltMotion, unheard]

theorem closing_dropCurrent (x : HeadId) (s : State) (k : HeadId) :
    ((dropCurrent x s).head k).closing = (s.head k).closing := by
  rw [dropCurrent, eachHead_modHead (fun _ m => { m with current := none }) _ _ (unit_nodup s x)]
  split <;> rfl

theorem plan_dropCurrent (x : HeadId) (s : State) (k : HeadId) :
    (dropCurrent x s).plan k = s.plan k :=
  eachHead_keeps (P := fun t => t.plan k = s.plan k)
    (f := fun h => modHead h (fun m => { m with current := none }))
    (fun h t same => (plan_modHead h _ t k).trans same) _ _ rfl

theorem plan_haltOutcome (why : Reason) (x : HeadId) (s : State) (k : HeadId) :
    (haltOutcome why x s).plan k = s.plan k := by
  unfold haltOutcome
  dsimp only
  split
  · rfl
  · split
    · rfl
    · split
      · exact beginClosing_plan ..
      · split
        · rfl
        · exact plan_dropCurrent ..

/-- A fixed outcome stands: no writing begins, and none that runs is changed (R69). -/
theorem closing_haltOutcome_of_fixed {x : HeadId} {s : State} (why : Reason)
    (fixed : (s.head x).outcomeFixed = true) :
    ((haltOutcome why x s).head x).closing = (s.head x).closing := by
  unfold haltOutcome
  dsimp only
  split
  · rfl
  · simp only [fixed, Bool.not_true, Bool.false_eq_true, if_false]
    split
    · rfl
    · split
      · rfl
      · exact closing_dropCurrent ..

/-- An outcome not yet fixed is written as ABORTED (R69). -/
theorem haltOutcome_of_open {x : HeadId} {s : State} {o : Order} (why : Reason)
    (running : (s.head x).current = some o) (intact : (s.head x).writeFailed = false)
    (unfixed : (s.head x).outcomeFixed = false) :
    haltOutcome why x s = beginClosing x (abortedClosing why o (s.head x)) s := by
  simp [haltOutcome, running, intact, unfixed]

/-- What a halted stroke is written with is what was handed over, but for the outcome and its reason (R43). -/
theorem abortedClosing_result {m : Head} {r : HandOver} (why : Reason) (o : Order)
    (handed : m.handed = some r) :
    (abortedClosing why o m).result = { r with outcome := .aborted, reason := why } := by
  simp [abortedClosing, handed]

/-- Settles O33: the halt passes the CLOSED plan by, and the entry to HALTED leaves what was handed over at press
end, so that this is what is written where no outcome is fixed. -/
theorem haltAfterPressEndKeepsVerdicts : Obligations.HaltAfterPressEndKeepsVerdicts := by
  intro s x why p o r built closed running handed
  have still : (haltMotion why x s).head x = (s.head x).haltedFor why := head_haltMotion_self why x s
  have planKept : (haltUnit why x s).plan x = s.plan x := by
    rw [haltUnit_of_closed why built closed, plan_haltOutcome, plan_haltMotion]
  refine ⟨planKept.trans built, fun fixed => ⟨planKept, ?_⟩, fun unfixed intact => ?_⟩
  · rw [haltUnit_of_closed why built closed,
      closing_haltOutcome_of_fixed why ((congrArg Head.outcomeFixed still).trans fixed), still,
      haltedFor_closing]
  · have begun : haltOutcome why x (haltMotion why x s) = _ :=
      haltOutcome_of_open why ((congrArg Head.current still).trans running)
        ((congrArg Head.writeFailed still).trans intact) ((congrArg Head.outcomeFixed still).trans unfixed)
    have result := abortedClosing_result why o ((congrArg Head.handed still).trans handed)
    obtain ⟨stage, noted⟩ := beginClosing_closing x
      (abortedClosing why o ((haltMotion why x s).head x)) (haltMotion why x s)
    rw [haltUnit_of_closed why built closed, begun]
    exact ⟨_, noted, rfl, by simp [result]⟩

end Sys2Proof.Machine

/-! ## The base block of an identification (R107) -/

namespace Sys2Proof.Machine

theorem byteAt_lt (d : List Byte) (i : Nat) : byteAt d i < 2 ^ 8 := (d.getD i 0).isLt

theorem u16At_lt (d : List Byte) (i : Nat) : u16At d i < 2 ^ 16 := by
  have low := byteAt_lt d i
  have high := byteAt_lt d (i + 1)
  rw [u16At]
  omega

/-- R107: what the block must give, as the base page lays it out. -/
theorem baseOk_iff (r : BlockReply) :
    baseOk r = true ↔
      u16At r.data 0 ≠ 0 ∧ 1 ≤ byteAt r.data 2 ∧ byteAt r.data 2 ≤ 32 ∧
        byteAt r.data 3 = (byteAt r.data 2 + 7) / 8 + 2 ∧ byteAt r.data 3 ≤ 8 ∧ r.more = true := by
  simp only [baseOk, inRange, Bool.and_eq_true, decide_eq_true_eq, and_assoc]
  rfl

/-- R106: a tool that has any tine has a first calibration block. -/
theorem nextCal_zero {tines : Nat} (some_tine : 1 ≤ tines) : nextCal tines 0 = .cal 0 :=
  if_pos some_tine

theorem identified_base_of_ok {r : BlockReply} (t : Tool) (passes : baseOk r = true) :
    t.identified .base r =
      { t.queue (.identify (nextCal (byteAt r.data 2) 0)) with
        toolType := BitVec.ofNat 16 (u16At r.data 0), tines := byteAt r.data 2,
        pages := byteAt r.data 3 } :=
  if_pos passes

theorem identified_base_of_not_ok {r : BlockReply} (t : Tool) (fails : ¬ baseOk r = true) :
    t.identified .base r = t.toFault :=
  if_neg fails

/-- Settles O45, by whether the block passes; the sixteen bits of the record hold any type that two bytes give. -/
theorem baseBlockIsChecked : Obligations.BaseBlockIsChecked := by
  rintro t r kind tines pages rfl rfl rfl
  constructor
  · intro passes
    have ⟨_, some_tine, _⟩ := passes
    rw [identified_base_of_ok t ((baseOk_iff r).mpr passes), nextCal_zero some_tine]
    have kind_kept : (BitVec.ofNat 16 (u16At r.data 0)).toNat = u16At r.data 0 :=
      (BitVec.toNat_ofNat ..).trans (Nat.mod_eq_of_lt (u16At_lt r.data 0))
    exact ⟨kind_kept, rfl, rfl, rfl, rfl⟩
  · intro fails
    rw [identified_base_of_not_ok t (mt (baseOk_iff r).mp fails)]
    rfl

end Sys2Proof.Machine

/-! ## The end of a command -/

namespace Sys2Proof.Machine

/-- `t` is what the end of a command makes of `u`: one request may have been granted, and the moment has passed. -/
structure Ended (u t : State) : Prop where
  parts : ∃ b c, t = { u with bus := b, choices := c, stamp := u.stamp + 1 }
  keys : (t.bus.map BusReq.key).Perm (u.bus.map BusReq.key)
  kept : ∀ r ∈ u.bus, ∃ q ∈ t.bus, q.access = r.access ∧ q.addr = r.addr ∧ q.fate = r.fate ∧
    ((∀ p, r.access ≠ .header p) → r.access ≠ .headerAll → q.len = r.len ∧ q.data = r.data)

/-- Only the request granted changes, and of it only a header write takes its bytes at the grant. -/
theorem grantOf_kept (s : State) (r : BusReq) : (s.grantOf r).access = r.access ∧
    (s.grantOf r).addr = r.addr ∧ (s.grantOf r).fate = r.fate ∧
    ((∀ p, r.access ≠ .header p) → r.access ≠ .headerAll →
      (s.grantOf r).len = r.len ∧ (s.grantOf r).data = r.data) := by
  unfold State.grantOf
  split
  · next p h => exact ⟨rfl, rfl, rfl, fun other => absurd h (other p)⟩
  · next h => exact ⟨rfl, rfl, rfl, fun _ other => absurd h other⟩
  · exact ⟨rfl, rfl, rfl, fun _ _ => ⟨rfl, rfl⟩⟩

theorem grantAt_kept (s : State) (i : Nat) : ∀ r ∈ s.bus, ∃ q ∈ (s.grantAt i).bus,
    q.access = r.access ∧ q.addr = r.addr ∧ q.fate = r.fate ∧
    ((∀ p, r.access ≠ .header p) → r.access ≠ .headerAll → q.len = r.len ∧ q.data = r.data) := by
  intro r hr
  unfold State.grantAt
  split
  · exact ⟨r, hr, rfl, rfl, rfl, fun _ _ => ⟨rfl, rfl⟩⟩
  · next g hg =>
    obtain ⟨hi, rfl⟩ := List.getElem?_eq_some_iff.mp hg
    have place : r ∈ s.bus[i] :: s.bus.eraseIdx i :=
      (List.getElem_cons_eraseIdx_perm hi).mem_iff.mpr hr
    rcases List.mem_cons.mp place with rfl | rest
    · exact ⟨_, List.mem_cons_self, grantOf_kept s _⟩
    · exact ⟨r, List.mem_cons_of_mem _ rest, rfl, rfl, rfl, fun _ _ => ⟨rfl, rfl⟩⟩

theorem grantNext_kept (s : State) : ∀ r ∈ s.bus, ∃ q ∈ (grantNext s).bus,
    q.access = r.access ∧ q.addr = r.addr ∧ q.fate = r.fate ∧
    ((∀ p, r.access ≠ .header p) → r.access ≠ .headerAll → q.len = r.len ∧ q.data = r.data) := by
  intro r hr
  have same : ∃ q ∈ s.bus, q.access = r.access ∧ q.addr = r.addr ∧ q.fate = r.fate ∧
      ((∀ p, r.access ≠ .header p) → r.access ≠ .headerAll → q.len = r.len ∧ q.data = r.data) :=
    ⟨r, hr, rfl, rfl, rfl, fun _ _ => ⟨rfl, rfl⟩⟩
  unfold grantNext
  split
  · exact same
  · split
    · exact same
    · split
      · exact same
      · exact grantAt_kept s _ r hr
      · exact grantAt_kept s _ r hr

/-- Every command's end answers a next state. -/
theorem finish_ended (u : State) : ∃ t, finish u = .next t ∧ Ended u t := by
  obtain ⟨b, c, e⟩ := grantNext_eq u
  exact ⟨_, rfl, ⟨b, c, by rw [e]⟩, grantNext_keys u, grantNext_kept u⟩

/-- A command that comes to `u` answers whatever the end of a command makes of `u`. -/
theorem Answers.of_finish {i : Instr} {s u : State} {P : State → Prop} (run : exec i s = finish u)
    (holds : ∀ t, Ended u t → P t) : Answers i s P := by
  obtain ⟨t, next, ended⟩ := finish_ended u
  exact ⟨t, run.trans next, holds t ended⟩

namespace Ended
variable {u t : State} (e : Ended u t)
include e

theorem pending : t.pending = u.pending := by obtain ⟨b, c, rfl⟩ := e.parts; rfl
theorem control : t.control = u.control := by obtain ⟨b, c, rfl⟩ := e.parts; rfl
theorem rewrite : t.rewrite = u.rewrite := by obtain ⟨b, c, rfl⟩ := e.parts; rfl
theorem reader : t.reader = u.reader := by obtain ⟨b, c, rfl⟩ := e.parts; rfl
theorem heads : t.heads = u.heads := by obtain ⟨b, c, rfl⟩ := e.parts; rfl
theorem senses : t.senses = u.senses := by obtain ⟨b, c, rfl⟩ := e.parts; rfl
theorem plans : t.plans = u.plans := by obtain ⟨b, c, rfl⟩ := e.parts; rfl
theorem tools : t.tools = u.tools := by obtain ⟨b, c, rfl⟩ := e.parts; rfl
theorem toolBus : t.toolBus = u.toolBus := by obtain ⟨b, c, rfl⟩ := e.parts; rfl
theorem claims : t.claims = u.claims := by obtain ⟨b, c, rfl⟩ := e.parts; rfl
theorem claimMsgs : t.claimMsgs = u.claimMsgs := by obtain ⟨b, c, rfl⟩ := e.parts; rfl
theorem grants : t.grants = u.grants := by obtain ⟨b, c, rfl⟩ := e.parts; rfl
theorem inputs : t.inputs = u.inputs := by obtain ⟨b, c, rfl⟩ := e.parts; rfl
theorem head (k : HeadId) : t.head k = u.head k := congrArg (Four.get · k) e.heads
theorem sense (k : HeadId) : t.sense k = u.sense k := congrArg (Four.get · k) e.senses
theorem plan (k : HeadId) : t.plan k = u.plan k := congrArg (Four.get · k) e.plans
theorem tool (k : HeadId) : t.tool k = u.tool k := congrArg (Four.get · k) e.tools

theorem sameBus : sameBus u t := ⟨e.keys, e.rewrite⟩

theorem sameBlocks : sameBlocks u t :=
  ⟨⟨e.heads, e.senses, e.plans⟩, ⟨e.tools, e.toolBus⟩, ⟨e.claims, e.claimMsgs, e.grants⟩, e.reader,
    e.inputs, e.pending⟩

theorem busAddr (offset : Nat) : t.busAddr offset = u.busAddr offset := by
  simp only [State.busAddr, e.control]

theorem flagged {d : Event} (set : flagged d u) : flagged d t := by
  simpa only [Machine.flagged, e.control] using set

/-- A read stays at the bus. -/
theorem reads {a : Access} {offset len : Nat} (header : ∀ p, a ≠ .header p) (whole : a ≠ .headerAll)
    (asked : reads a offset len u) : reads a offset len t := by
  obtain ⟨r, hr, rfl, addr, len, live⟩ := asked
  obtain ⟨q, hq, access, addr', fate, same⟩ := e.kept r hr
  exact ⟨q, hq, access, by rw [addr', addr, e.busAddr], by rw [(same header whole).1, len], by rw [fate, live]⟩

/-- A write stays at the bus with its bytes, unless it is one of the header. -/
theorem writes {a : Access} {offset : Nat} {data : List Byte} (header : ∀ p, a ≠ .header p)
    (whole : a ≠ .headerAll) (asked : writes a offset data u) : writes a offset data t := by
  obtain ⟨r, hr, rfl, addr, data, live⟩ := asked
  obtain ⟨q, hq, access, addr', fate, same⟩ := e.kept r hr
  exact ⟨q, hq, access, by rw [addr', addr, e.busAddr], by rw [(same header whole).2, data], by rw [fate, live]⟩

end Ended

end Sys2Proof.Machine

/-! ## What the operations of a unit and of the chain reader may do

One relation is borne by every operation that a head's sequencer or the chain reader makes: it says what may change,
which requests stay at the bus, that only the heads named change, and how head states move. -/

namespace Sys2Proof.Machine

/-- Accesses that no head and no chain reader gives up: all but the reads and the write of PREPARE and the reader's
reads. -/
def Access.lasting (a : Access) : Bool := !a.readerRead && HeadId.all.all (fun h => !a.ofPrep h)

/-- What belongs to one head is unchanged. -/
def sameAt (k : HeadId) (s t : State) : Prop :=
  t.head k = s.head k ∧ t.sense k = s.sense k ∧ t.plan k = s.plan k ∧ t.tool k = s.tool k ∧
    t.claimMsgs.get k = s.claimMsgs.get k

/-- A ram held: setpoint 0 on the brake. -/
def Head.still (m : Head) : Prop := m.setpoint = 0 ∧ m.direction = .none ∧ m.brake = true

/-- A sequencer that stays in its state and gang, and whose drive stays or is stopped on the brake, or runs in a
motion state. -/
def Head.steadyTo (m n : Head) : Prop :=
  n.state = m.state ∧ n.gang = m.gang ∧ (m.still → n.still ∨ m.state.inMotion = true)

/-- From `s` to `t` nothing has changed but what heads, evaluators, front-ends, tools and the chain reader do of their
own: run control but for events stands, and only the heads of `us` are touched. -/
structure Confined (us : List HeadId) (s t : State) : Prop where
  parts : ∃ m n p u l c f k q b r, t = { s with
    heads := m, senses := n, plans := p, tools := u, claimMsgs := l, choices := c, reader := q, bus := b, rewrite := r,
    control := { s.control with evt := s.control.evt ||| f, msiSent := k } }
  bus : ∀ q ∈ s.bus, q.access.lasting = true → q ∈ t.bus
  others : ∀ k, k ∉ us → sameAt k s t
  gangs : ∀ k, (t.head k).gang = true → (s.head k).gang = true
  flight : OneInFlight s → OneInFlight t

/-- How head states may move on the way from `s` to `t`: gangs stay together, rams outside the motion states are
held, and every state entered is HALTED, IDLE, OFFLINE or one that `P` allows. -/
structure Walk (P : HeadState → Prop) (s t : State) : Prop where
  aligned : GangsAligned s → GangsAligned t
  still : GangsAligned s → StillAtRest s → StillAtRest t
  moved : ∀ k, (t.head k).state = (s.head k).state ∨
    (t.head k).state = .halted ∨ (t.head k).state.atRest = true ∨ P (t.head k).state

/-- Both together. -/
structure Worked (P : HeadState → Prop) (us : List HeadId) (s t : State) : Prop where
  frame : Confined us s t
  walk : Walk P s t

/-! ### Composition -/

theorem sameAt.refl (k : HeadId) (s : State) : sameAt k s s := ⟨rfl, rfl, rfl, rfl, rfl⟩

theorem sameAt.trans {k : HeadId} {s t u : State} (a : sameAt k s t) (b : sameAt k t u) : sameAt k s u := by
  obtain ⟨a1, a2, a3, a4, a5⟩ := a
  obtain ⟨b1, b2, b3, b4, b5⟩ := b
  exact ⟨b1.trans a1, b2.trans a2, b3.trans a3, b4.trans a4, b5.trans a5⟩

theorem Confined.refl (us : List HeadId) (s : State) : Confined us s s where
  parts := ⟨s.heads, s.senses, s.plans, s.tools, s.claimMsgs, s.choices, 0, s.control.msiSent, s.reader, s.bus,
    s.rewrite, by simp⟩
  bus := fun _ h _ => h
  others := fun k _ => .refl k s
  gangs := fun _ h => h
  flight := id

theorem Confined.trans {us : List HeadId} {s t u : State} (a : Confined us s t) (b : Confined us t u) : Confined us s u where
  parts := by
    obtain ⟨_, _, _, _, _, _, f, _, _, _, _, rfl⟩ := a.parts
    obtain ⟨m, n, p, v, l, c, g, k, q, d, r, rfl⟩ := b.parts
    exact ⟨m, n, p, v, l, c, f ||| g, k, q, d, r, by simp [BitVec.or_assoc]⟩
  bus := fun q h l => b.bus q (a.bus q h l) l
  others := fun k h => (a.others k h).trans (b.others k h)
  gangs := fun k h => a.gangs k (b.gangs k h)
  flight := b.flight ∘ a.flight

theorem Walk.refl (P : HeadState → Prop) (s : State) : Walk P s s := ⟨id, fun _ => id, fun _ => .inl rfl⟩

theorem Walk.trans {P : HeadState → Prop} {s t u : State} (a : Walk P s t) (b : Walk P t u) : Walk P s u where
  aligned := b.aligned ∘ a.aligned
  still := fun g h => b.still (a.aligned g) (a.still g h)
  moved := fun k => by
    rcases b.moved k with same | moved
    · rw [same]; exact a.moved k
    · exact .inr moved

theorem Worked.refl (P : HeadState → Prop) (us : List HeadId) (s : State) : Worked P us s s :=
  ⟨.refl us s, .refl P s⟩

theorem Worked.trans {P : HeadState → Prop} {us : List HeadId} {s t u : State} (a : Worked P us s t)
    (b : Worked P us t u) : Worked P us s u := ⟨a.frame.trans b.frame, a.walk.trans b.walk⟩

/-- Gangs are only dissolved, so a unit never grows. -/
theorem Confined.unit {us : List HeadId} {s t : State} (f : Confined us s t) (x : HeadId) : t.unit x ⊆ s.unit x := by
  unfold State.unit
  cases ht : (t.head x).gang
  · intro k hk
    obtain rfl : k = x := by simpa using hk
    exact mem_unit_self s k
  · simp [f.gangs x ht]

/-- A second operation on the unit of `x` follows a first. -/
theorem Worked.andThen {P : HeadState → Prop} {us : List HeadId} {s t u : State} {x : HeadId}
    (a : Worked P us s t) (within : s.unit x ⊆ us) (b : t.unit x ⊆ us → Worked P us t u) : Worked P us s u :=
  a.trans (b (List.Subset.trans (a.frame.unit x) within))

theorem Worked.eachHead {P : HeadState → Prop} {us : List HeadId} {f : HeadId → State → State} :
    ∀ (hs : List HeadId) (s : State), (∀ h ∈ hs, ∀ t, Worked P us t (f h t)) →
      Worked P us s (Machine.eachHead f hs s)
  | [], s, _ => .refl P us s
  | h :: hs, s, each => (each h List.mem_cons_self s).trans
      (Worked.eachHead hs _ fun k hk => each k (List.mem_cons_of_mem _ hk))

theorem Worked.mono {P Q : HeadState → Prop} {us vs : List HeadId} {s t : State} (w : Worked P us s t)
    (allows : ∀ st, P st → Q st) (within : us ⊆ vs) : Worked Q vs s t :=
  ⟨⟨w.frame.parts, w.frame.bus, fun k hk => w.frame.others k fun h => hk (within h), w.frame.gangs,
    w.frame.flight⟩,
    w.walk.aligned, w.walk.still, fun k => (w.walk.moved k).imp_right (.imp_right (.imp_right (allows _)))⟩

/-! ### What a frame leaves -/

namespace Confined
variable {us : List HeadId} {s t : State} (f : Confined us s t)
include f

theorem pending : t.pending = s.pending := by obtain ⟨_, _, _, _, _, _, _, _, _, _, _, rfl⟩ := f.parts; rfl
theorem stamp : t.stamp = s.stamp := by obtain ⟨_, _, _, _, _, _, _, _, _, _, _, rfl⟩ := f.parts; rfl
theorem claims : t.claims = s.claims := by obtain ⟨_, _, _, _, _, _, _, _, _, _, _, rfl⟩ := f.parts; rfl
theorem grants : t.grants = s.grants := by obtain ⟨_, _, _, _, _, _, _, _, _, _, _, rfl⟩ := f.parts; rfl
theorem inputs : t.inputs = s.inputs := by obtain ⟨_, _, _, _, _, _, _, _, _, _, _, rfl⟩ := f.parts; rfl
theorem toolBus : t.toolBus = s.toolBus := by obtain ⟨_, _, _, _, _, _, _, _, _, _, _, rfl⟩ := f.parts; rfl

/-- Run control keeps all but its events. -/
theorem control : ∃ g k, t.control = { s.control with evt := s.control.evt ||| g, msiSent := k } := by
  obtain ⟨_, _, _, _, _, _, g, k, _, _, _, rfl⟩ := f.parts; exact ⟨g, k, rfl⟩

theorem run : t.control.run = s.control.run := by obtain ⟨_, _, e⟩ := f.control; rw [e]
theorem device : t.control.device = s.control.device := by obtain ⟨_, _, e⟩ := f.control; rw [e]
theorem lastRefusal : t.control.lastRefusal = s.control.lastRefusal := by obtain ⟨_, _, e⟩ := f.control; rw [e]
theorem aborting : t.control.aborting = s.control.aborting := by obtain ⟨_, _, e⟩ := f.control; rw [e]
theorem startEstop : t.control.startEstop = s.control.startEstop := by obtain ⟨_, _, e⟩ := f.control; rw [e]
theorem startGivenUp : t.control.startGivenUp = s.control.startGivenUp := by
  obtain ⟨_, _, e⟩ := f.control; rw [e]
theorem area : t.control.area = s.control.area := by obtain ⟨_, _, e⟩ := f.control; rw [e]
theorem setupCopy : t.control.setup = s.control.setup := by obtain ⟨_, _, e⟩ := f.control; rw [e]

theorem setup : t.setup = s.setup := congrArg (·.getD Setup.unset) f.setupCopy
theorem busAddr (offset : Nat) : t.busAddr offset = s.busAddr offset := by simp only [State.busAddr, f.area]
theorem guardOpen : t.guardOpen = s.guardOpen := congrArg (·.guard.level) f.inputs
theorem estopActive : t.estopActive = s.estopActive := congrArg (·.estop.level) f.inputs
theorem ramTop (k : HeadId) : t.ramTop k = s.ramTop k := by simp only [State.ramTop, f.inputs]
theorem posReady (k : HeadId) : t.posReady k = s.posReady k := by simp only [State.posReady, f.inputs]

/-- Events raised stay raised. -/
theorem flagged {d : Event} (set : flagged d s) : Machine.flagged d t := by
  obtain ⟨g, k, e⟩ := f.control
  simp only [Machine.flagged, e] at *
  rw [BitVec.and_comm] at set ⊢
  rw [BitVec.and_or_distrib_left, set]
  ext i
  simpa using fun e _ => e

theorem head {k : HeadId} (other : k ∉ us) : t.head k = s.head k := (f.others k other).1

/-- A lasting write stays at the bus. -/
theorem writes {a : Access} {offset : Nat} {data : List Byte} (lasting : a.lasting = true)
    (asked : writes a offset data s) : Machine.writes a offset data t := by
  obtain ⟨r, hr, rfl, addr, same⟩ := asked
  exact ⟨r, f.bus r hr lasting, rfl, by rw [addr, f.busAddr], same⟩

theorem othersSame : othersSame us s t := fun k hk =>
  ⟨(f.others k hk).1, (f.others k hk).2.1, (f.others k hk).2.2.1, (f.others k hk).2.2.2.1⟩

end Confined

/-! ### Single operations -/

section
variable {P : HeadState → Prop} {us : List HeadId}

/-- What touches neither heads nor run control, the board or the bus, but for requests that are not lasting. -/
theorem Worked.of_heads {s t : State} (f : Confined us s t) (same : t.heads = s.heads) : Worked P us s t := by
  have at_head : ∀ k, t.head k = s.head k := fun k => congrArg (Four.get · k) same
  refine ⟨f, ⟨fun g h => ?_, fun _ held h => ?_, fun k => .inl (by rw [at_head])⟩⟩
  · simp only [at_head]; exact g h
  · simp only [at_head]; exact held h

/-- Only bus and rewrite marks change, and what is lasting stays at the bus. -/
theorem Confined.of_bus {s t : State} (touched : BusTouched s t)
    (kept : ∀ q ∈ s.bus, q.access.lasting = true → q ∈ t.bus) (flight : OneInFlight s → OneInFlight t) :
    Confined us s t := by
  obtain ⟨b, r, rfl⟩ := touched
  exact ⟨⟨s.heads, s.senses, s.plans, s.tools, s.claimMsgs, s.choices, 0, s.control.msiSent, s.reader, b, r, by simp⟩,
    kept, fun _ _ => ⟨rfl, rfl, rfl, rfl, rfl⟩, fun _ h => h, flight⟩

/-- A request that joins the list waits. -/
theorem request_flight (a : Access) (addr : BitVec 64) (len : Nat) (data : List Byte) (s : State) :
    OneInFlight s → OneInFlight (request a addr len data s) := by
  intro one r hr
  rw [request_bus] at hr
  cases hb : s.bus with
  | nil => simp [hb] at hr
  | cons q rest =>
    rw [hb, List.cons_append, List.tail_cons] at hr
    rcases List.mem_append.mp hr with old | new
    · exact one r (by simpa [hb] using old)
    · rw [List.mem_singleton.mp new]

/-- What is given up leaves at most the first access in flight. -/
theorem dropRequests_flight (mine : Access → Bool) (s : State) :
    OneInFlight s → OneInFlight (dropRequests mine s) := by
  intro one r hr
  have shrunk : ((s.bus.filter fun q => !mine q.access || q.granted).tail).Sublist s.bus.tail :=
    List.filter_sublist.tail
  rw [dropRequests, ← List.map_tail] at hr
  obtain ⟨q, hq, rfl⟩ := List.mem_map.mp hr
  have waits : q.granted = false := one q (shrunk.mem hq)
  split <;> exact waits

theorem requestPart_flight (p : HeaderPart) (s : State) : OneInFlight s → OneInFlight (requestPart p s) := by
  intro one
  unfold requestPart
  split
  · exact one
  · split
    · exact request_flight _ _ _ _ s one
    · split <;> exact one

theorem request_worked (a : Access) (addr : BitVec 64) (len : Nat) (data : List Byte) (s : State) :
    Worked P us s (request a addr len data s) :=
  .of_heads (.of_bus (request_touches ..) (fun _ h _ => List.mem_append_left _ h) (request_flight _ _ _ _ s)) rfl

theorem requestRead_worked (a : Access) (offset len : Nat) (s : State) :
    Worked P us s (requestRead a offset len s) := request_worked ..

theorem requestWrite_worked (a : Access) (offset : Nat) (data : List Byte) (s : State) :
    Worked P us s (requestWrite a offset data s) := request_worked ..

theorem mem_dropRequests {mine : Access → Bool} {s : State} {q : BusReq} (other : mine q.access = false)
    (present : q ∈ s.bus) : q ∈ (dropRequests mine s).bus := by
  refine List.mem_map.mpr ⟨q, List.mem_filter.mpr ⟨present, by simp [other]⟩, by simp [other]⟩

theorem lasting_ofPrep {a : Access} (lasting : a.lasting = true) (x : HeadId) : a.ofPrep x = false := by
  simp only [Access.lasting, Bool.and_eq_true, List.all_eq_true, HeadId.mem_all, forall_const] at lasting
  simpa using lasting.2 x

theorem lasting_readerRead {a : Access} (lasting : a.lasting = true) : a.readerRead = false := by
  simp only [Access.lasting, Bool.and_eq_true] at lasting
  simpa using lasting.1

theorem dropPrep_worked (x : HeadId) (s : State) : Worked P us s (dropRequests (Access.ofPrep x) s) :=
  .of_heads (.of_bus (dropRequests_touches ..) (fun _ h l => mem_dropRequests (lasting_ofPrep l x) h)
    (dropRequests_flight _ s)) rfl

theorem dropReads_worked (s : State) : Worked P us s (dropRequests Access.readerRead s) :=
  .of_heads (.of_bus (dropRequests_touches ..) (fun _ h l => mem_dropRequests (lasting_readerRead l) h)
    (dropRequests_flight _ s)) rfl

theorem requestPart_heads (p : HeaderPart) (s : State) : (requestPart p s).heads = s.heads := by
  obtain ⟨b, r, e⟩ := requestPart_touches p s
  rw [e]

theorem requestPart_worked (p : HeaderPart) (s : State) : Worked P us s (requestPart p s) := by
  refine .of_heads (.of_bus (requestPart_touches p s) (fun q h _ => ?_) (requestPart_flight p s)) (requestPart_heads p s)
  unfold requestPart
  split
  · exact h
  · split
    · exact List.mem_append_left _ h
    · split <;> exact h

theorem raise_worked (e : Event) (s : State) : Worked P us s (raise e s) := by
  obtain ⟨n, h⟩ := control_raise s.control e
  exact .of_heads ⟨⟨s.heads, s.senses, s.plans, s.tools, s.claimMsgs, s.choices, e.mask, n, s.reader, s.bus,
    s.rewrite, by rw [raise, h]⟩, fun _ h _ => h, fun _ _ => ⟨rfl, rfl, rfl, rfl, rfl⟩, fun _ h => h, id⟩ rfl

theorem modReader_worked (f : Reader → Reader) (s : State) : Worked P us s (modReader f s) :=
  .of_heads ⟨⟨s.heads, s.senses, s.plans, s.tools, s.claimMsgs, s.choices, 0, s.control.msiSent, _, s.bus, s.rewrite,
    by simp [modReader]; rfl⟩, fun _ h _ => h, fun _ _ => ⟨rfl, rfl, rfl, rfl, rfl⟩, fun _ h => h, id⟩ rfl

theorem changeReader_worked (f : Reader → Reader) (s : State) : Worked P us s (changeReader f s) :=
  (modReader_worked f s).trans (requestPart_worked ..)

theorem choices_worked (n : Nat) (s : State) : Worked P us s { s with choices := n } :=
  .of_heads ⟨⟨s.heads, s.senses, s.plans, s.tools, s.claimMsgs, n, 0, s.control.msiSent, s.reader, s.bus, s.rewrite,
    by simp⟩, fun _ h _ => h, fun _ _ => ⟨rfl, rfl, rfl, rfl, rfl⟩, fun _ h => h, id⟩ rfl

theorem ne_of_mem_of_not_mem {h k : HeadId} (mine : h ∈ us) (other : k ∉ us) : k ≠ h :=
  fun e => other (e ▸ mine)

theorem modSense_worked {h : HeadId} (mine : h ∈ us) (f : Sense → Sense) (s : State) :
    Worked P us s (modSense h f s) :=
  .of_heads ⟨⟨s.heads, _, s.plans, s.tools, s.claimMsgs, s.choices, 0, s.control.msiSent, s.reader, s.bus, s.rewrite,
    by simp [modSense]; rfl⟩, fun _ h _ => h,
    fun k other => ⟨rfl, sense_modSense_other (ne_of_mem_of_not_mem mine other) f s, rfl, rfl, rfl⟩, fun _ h => h, id⟩ rfl

theorem setPlan_worked {h : HeadId} (mine : h ∈ us) (p : PlanState) (s : State) :
    Worked P us s (setPlan h p s) :=
  .of_heads ⟨⟨s.heads, s.senses, _, s.tools, s.claimMsgs, s.choices, 0, s.control.msiSent, s.reader, s.bus, s.rewrite,
    by simp [setPlan]; rfl⟩, fun _ h _ => h,
    fun k other => ⟨rfl, rfl, plan_setPlan_other (ne_of_mem_of_not_mem mine other) p s, rfl, rfl⟩, fun _ h => h, id⟩ rfl

theorem modTool_worked {h : HeadId} (mine : h ∈ us) (f : Tool → Tool) (s : State) :
    Worked P us s (modTool h f s) :=
  .of_heads ⟨⟨s.heads, s.senses, s.plans, _, s.claimMsgs, s.choices, 0, s.control.msiSent, s.reader, s.bus, s.rewrite,
    by simp [modTool]; rfl⟩, fun _ h _ => h,
    fun k other => ⟨rfl, rfl, rfl, tool_modTool_other (ne_of_mem_of_not_mem mine other) f s, rfl⟩, fun _ h => h, id⟩ rfl

theorem sendClaim_worked {h : HeadId} (mine : h ∈ us) (m : ClaimMsg) (s : State) :
    Worked P us s (sendClaim h m s) :=
  .of_heads ⟨⟨s.heads, s.senses, s.plans, s.tools, _, s.choices, 0, s.control.msiSent, s.reader, s.bus, s.rewrite,
    by simp [sendClaim]; rfl⟩, fun _ h _ => h,
    fun k other => ⟨rfl, rfl, rfl, rfl, Four.get_set_other _ _ (ne_of_mem_of_not_mem mine other)⟩, fun _ h => h, id⟩ rfl

/-- A frame whose only change is at the sequencers of `us`, none of which joins a gang. -/
theorem Confined.of_heads {s : State} (m : Four Head) (others : ∀ k, k ∉ us → m.get k = s.head k)
    (gangs : ∀ k, (m.get k).gang = true → (s.head k).gang = true) : Confined us s { s with heads := m } :=
  ⟨⟨m, s.senses, s.plans, s.tools, s.claimMsgs, s.choices, 0, s.control.msiSent, s.reader, s.bus, s.rewrite, by simp⟩,
    fun _ h _ => h, fun k other => ⟨others k other, rfl, rfl, rfl, rfl⟩, gangs, id⟩

theorem modHead_frame {h : HeadId} (mine : h ∈ us) {f : Head → Head}
    (gang : ∀ m, (f m).gang = true → m.gang = true) (s : State) : Confined us s (modHead h f s) := by
  refine .of_heads _ (fun k other => ?_) fun k => ?_
  · exact Four.get_set_other _ _ (ne_of_mem_of_not_mem mine other)
  · rw [Four.get_set]
    split
    · next e => rw [e]; exact gang _
    · exact id

/-- Sequencers that are steady walk nowhere. -/
theorem Walk.of_steady {s t : State} (steady : ∀ k, (s.head k).steadyTo (t.head k)) : Walk P s t where
  aligned := fun g h gang => by
    simp only [(steady _).1, (steady _).2.1] at *
    exact g h gang
  still := fun _ held h out => by
    rw [(steady h).1] at out
    rcases (steady h).2.2 (held h out) with still | motion
    · exact still
    · exact absurd (out.symm.trans motion) (by decide)
  moved := fun k => .inl (steady k).1

theorem Head.steadyTo_refl (m : Head) : m.steadyTo m := ⟨rfl, rfl, .inl⟩

theorem modHead_worked {h : HeadId} (mine : h ∈ us) {f : Head → Head} {s : State}
    (steady : (s.head h).steadyTo (f (s.head h))) : Worked P us s (modHead h f s) := by
  have each : ∀ k, (s.head k).steadyTo ((modHead h f s).head k) := fun k => by
    by_cases e : k = h
    · subst e; simpa using steady
    · simpa [e] using (s.head k).steadyTo_refl
  refine ⟨.of_heads _ (fun k other => Four.get_set_other _ _ (ne_of_mem_of_not_mem mine other))
    fun k gang => ?_, .of_steady each⟩
  exact (each k).2.1 ▸ gang

end

end Sys2Proof.Machine

/-! ## Sequencers changed head by head -/

namespace Sys2Proof.Machine

/-- Each operation of a round changes its own head's sequencer by `g`; so the round changes those of the list. -/
theorem head_eachHead {f : HeadId → State → State} {g : HeadId → Head → Head}
    (one : ∀ h s, (f h s).heads = s.heads.set h (g h (s.head h))) :
    ∀ (hs : List HeadId) (s : State), hs.Nodup → ∀ k,
      (eachHead f hs s).head k = if k ∈ hs then g k (s.head k) else s.head k
  | [], s, _, k => by simp [eachHead]
  | h :: hs, s, nd, k => by
    obtain ⟨fresh, nd⟩ := List.nodup_cons.mp nd
    rw [eachHead, head_eachHead one hs _ nd k]
    by_cases own : k = h
    · subst own
      simp [fresh, State.head, one]
    · simp [own, State.head, one]

theorem head_putState (st : HeadState) (h : HeadId) (s : State) (k : HeadId) :
    (putState st h s).head k = if k = h then { s.head k with state := st } else s.head k := by
  simp only [State.head, putState_heads, Four.get_set]
  split
  · next e => rw [e]
  · rfl

/-- A unit's outputs set. -/
theorem head_setDrive (d : Drive) (x : HeadId) (s : State) (k : HeadId) :
    (setDrive d x s).head k = if k ∈ s.unit x then (s.head k).drive d else s.head k :=
  eachHead_modHead (fun _ => Head.drive d) _ s (unit_nodup s x) k

theorem head_eachPutState (st : HeadState) (x : HeadId) (s : State) (k : HeadId) :
    (eachHead (putState st) (s.unit x) s).head k =
      if k ∈ s.unit x then { s.head k with state := st } else s.head k :=
  head_eachHead (g := fun _ m => { m with state := st }) (fun h s => putState_heads st h s) _ s (unit_nodup s x) k

/-- A unit that enters a state: every one of its heads stands in it with its outputs. -/
theorem head_enterState (st : HeadState) (x : HeadId) (s : State) (k : HeadId) :
    (enterState st x s).head k =
      if k ∈ s.unit x then
        ({ s.head k with state := st } : Head).drive
          (driveOf (s.head x).current (s.setup.fullScale.get x) st)
      else s.head k := by
  have put := head_eachPutState st x s
  have gang : ((eachHead (putState st) (s.unit x) s).head x).gang = (s.head x).gang := by
    rw [put]; split <;> rfl
  rw [enterState, head_setDrive, unit_congr gang, put]
  split <;> rfl

/-! ## How a unit's states move -/

section
variable {P : HeadState → Prop} {us : List HeadId}

/-- The members of a gang's unit, and of a single head's. -/
theorem mem_unit_iff {s : State} {x k : HeadId} :
    k ∈ s.unit x ↔ if (s.head x).gang then k = x.primary ∨ k = x.companion else k = x := by
  unfold State.unit
  split <;> simp

theorem HeadId.companion_of_eq_primary {x k : HeadId} (h : k = x.primary ∨ k = x.companion) :
    k.primary = x.primary ∧ k.companion = x.companion := by
  rcases h with rfl | rfl <;> simp

/-- Where gangs work together, a gang's head has the whole gang for its unit, its members the same. -/
theorem unit_of_mem {s : State} (together : GangsAligned s) {x k : HeadId} (h : k ∈ s.unit x) :
    s.unit k = s.unit x := by
  cases g : (s.head x).gang
  · rw [unit_single g] at h
    obtain rfl := List.mem_singleton.mp h
    rfl
  · have pair : k = x.primary ∨ k = x.companion := by simpa [mem_unit_iff, g] using h
    have both := together x g
    have gk : (s.head k).gang = true := by rcases pair with rfl | rfl <;> simp [both]
    obtain ⟨p, c⟩ := HeadId.companion_of_eq_primary pair
    simp [State.unit, g, gk, p, c]

/-- All heads of a unit stand in one state. -/
theorem state_of_mem_unit {s : State} (together : GangsAligned s) {x k : HeadId} (h : k ∈ s.unit x) :
    (s.head k).state = (s.head x).state := by
  cases g : (s.head x).gang
  · rw [unit_single g] at h
    obtain rfl := List.mem_singleton.mp h
    rfl
  · have pair : k = x.primary ∨ k = x.companion := by simpa [mem_unit_iff, g] using h
    have same : (s.head x.primary).state = (s.head x.companion).state := (together x g).2.2.1
    rcases pair with rfl | rfl <;> rcases x.primary_or_companion with e | e <;> rw [e] <;> simp [same]

theorem gang_of_mem_unit {s : State} (together : GangsAligned s) {x k : HeadId} (h : k ∈ s.unit x) :
    (s.head k).gang = (s.head x).gang := by
  cases g : (s.head x).gang
  · rw [unit_single g] at h
    obtain rfl := List.mem_singleton.mp h
    exact g
  · have pair : k = x.primary ∨ k = x.companion := by simpa [mem_unit_iff, g] using h
    have both := together x g
    rcases pair with rfl | rfl <;> simp [both]

/-- The pair of a gang's head is in its unit whole or not at all. -/
theorem pair_mem_unit {s : State} (together : GangsAligned s) {x h : HeadId} (gang : (s.head h).gang = true) :
    (h.primary ∈ s.unit x ↔ h ∈ s.unit x) ∧ (h.companion ∈ s.unit x ↔ h ∈ s.unit x) := by
  have own : h.primary ∈ s.unit h ∧ h.companion ∈ s.unit h := by simp [mem_unit_iff, gang]
  have back : ∀ k, k ∈ s.unit h → (k ∈ s.unit x ↔ h ∈ s.unit x) := fun k hk => by
    constructor
    · intro m
      have e := (unit_of_mem together m).symm.trans (unit_of_mem together hk)
      rw [e]
      exact mem_unit_self s h
    · intro m
      rw [← unit_of_mem together m]
      exact hk
  exact ⟨back _ own.1, back _ own.2⟩

/-- A unit that enters a state other than IDLE and OFFLINE. -/
theorem Walk.shift {s t : State} (x : HeadId) (st : HeadState) (working : st.atRest = false)
    (allowed : st = .halted ∨ P st)
    (mine : ∀ k, k ∈ s.unit x →
      (t.head k).state = st ∧ (t.head k).gang = (s.head k).gang ∧ (st.inMotion = false → (t.head k).still))
    (rest : ∀ k, k ∉ s.unit x → t.head k = s.head k) : Walk P s t where
  aligned := fun together h gang => by
    have gangs : ∀ k, (t.head k).gang = (s.head k).gang := fun k => by
      by_cases m : k ∈ s.unit x
      · exact (mine k m).2.1
      · rw [rest k m]
    have was : (s.head h).gang = true := (gangs h).symm.trans gang
    obtain ⟨p, c, same, working'⟩ := together h was
    obtain ⟨mp, mc⟩ := pair_mem_unit together (x := x) was
    refine ⟨(gangs _).trans p, (gangs _).trans c, ?_, ?_⟩
    · by_cases m : h ∈ s.unit x
      · rw [(mine _ (mp.mpr m)).1, (mine _ (mc.mpr m)).1]
      · rw [rest _ (mt mp.mp m), rest _ (mt mc.mp m), same]
    · by_cases m : h ∈ s.unit x
      · rw [(mine _ m).1, working]
      · rw [rest _ m, working']
  still := fun _ held k out => by
    by_cases m : k ∈ s.unit x
    · rw [(mine k m).1] at out
      exact (mine k m).2.2 out
    · rw [rest k m] at out ⊢
      exact held k out
  moved := fun k => by
    by_cases m : k ∈ s.unit x
    · rw [(mine k m).1]
      rcases allowed with halted | allowed
      · exact .inr (.inl halted)
      · exact .inr (.inr (.inr allowed))
    · rw [rest k m]; exact .inl rfl

/-- A unit that comes to rest, its heads apart. -/
theorem Walk.rest {s t : State} (x : HeadId)
    (mine : ∀ k, k ∈ s.unit x → (t.head k).state.atRest = true ∧ (t.head k).gang = false ∧ (t.head k).still)
    (rest : ∀ k, k ∉ s.unit x → t.head k = s.head k) : Walk P s t where
  aligned := fun together h gang => by
    have other : h ∉ s.unit x := fun m => by simp [(mine h m).2.1] at gang
    rw [rest h other] at gang
    obtain ⟨mp, mc⟩ := pair_mem_unit together (x := x) gang
    rw [rest _ (mt mp.mp other), rest _ (mt mc.mp other), rest _ other]
    exact together h gang
  still := fun _ held k out => by
    by_cases m : k ∈ s.unit x
    · exact (mine k m).2.2
    · rw [rest k m] at out ⊢
      exact held k out
  moved := fun k => by
    by_cases m : k ∈ s.unit x
    · exact .inr (.inr (.inl (mine k m).1))
    · rw [rest k m]; exact .inl rfl

/-! ## The operations of a unit -/

theorem putState_frame {h : HeadId} (mine : h ∈ us) (st : HeadState) (s : State) :
    Confined us s (putState st h s) := by
  unfold putState
  split
  · exact .refl ..
  · exact (modHead_frame mine (by exact fun _ g => g) s).trans (requestPart_worked (P := fun _ => True) ..).frame

theorem putHaltReason_worked {h : HeadId} (mine : h ∈ us) (why : Reason) (s : State) :
    Worked P us s (putHaltReason why h s) := by
  unfold putHaltReason
  split
  · exact .refl ..
  · exact (modHead_worked mine ⟨rfl, rfl, .inl⟩).trans (requestPart_worked ..)

theorem Confined.eachHead {f : HeadId → State → State} :
    ∀ (hs : List HeadId) (s : State), (∀ h ∈ hs, ∀ t, Confined us t (f h t)) → Confined us s (Machine.eachHead f hs s)
  | [], s, _ => .refl us s
  | h :: hs, s, each => (each h List.mem_cons_self s).trans
      (Confined.eachHead hs _ fun k hk => each k (List.mem_cons_of_mem _ hk))

theorem setDrive_frame {x : HeadId} {s : State} (within : s.unit x ⊆ us) (d : Drive) :
    Confined us s (setDrive d x s) :=
  .eachHead _ s fun _ hk t => modHead_frame (within hk) (by exact fun _ g => g) t

/-- Outside the motion states a head is driven to setpoint 0 on its brake. -/
theorem driveOf_still {st : HeadState} (out : st.inMotion = false) (o : Option Order) (full : Nat) :
    driveOf o full st = Drive.still := by
  cases st
  case approach | seek | press | dwell | retract | recover => cases out
  all_goals rfl

theorem enterState_worked {x : HeadId} {s : State} (within : s.unit x ⊆ us) {st : HeadState}
    (working : st.atRest = false) (allowed : st = .halted ∨ P st) : Worked P us s (enterState st x s) := by
  have states : Confined us s (Machine.eachHead (putState st) (s.unit x) s) :=
    .eachHead _ s fun _ hk t => putState_frame (within hk) st t
  refine ⟨states.trans (setDrive_frame (List.Subset.trans (states.unit x) within) _),
    .shift x st working allowed (fun k m => ?_) fun k m => ?_⟩
  · rw [head_enterState, if_pos m]
    refine ⟨rfl, rfl, fun out => ?_⟩
    rw [driveOf_still out]
    exact ⟨rfl, rfl, rfl⟩
  · rw [head_enterState, if_neg m]

/-- Any change made at every head of a unit that leaves states, gangs and drives. -/
theorem eachUnit_worked {x : HeadId} {s : State} (within : s.unit x ⊆ us) {f : HeadId → Head → Head}
    (steady : ∀ k (m : Head), m.steadyTo (f k m)) : Worked P us s (Machine.eachHead (fun k => modHead k (f k)) (s.unit x) s) :=
  .eachHead _ s fun _ hk _ => modHead_worked (within hk) (steady _ _)

theorem armGuards_worked {x : HeadId} {s : State} (within : s.unit x ⊆ us) : Worked P us s (armGuards x s) :=
  .eachHead _ s fun _ hk _ => modHead_worked (within hk) ⟨rfl, rfl, .inl⟩

theorem disarmGuards_worked {x : HeadId} {s : State} (within : s.unit x ⊆ us) : Worked P us s (disarmGuards x s) :=
  .eachHead _ s fun _ hk _ => modHead_worked (within hk) ⟨rfl, rfl, .inl⟩

/-! ### Rest -/

theorem restHead_frame {h : HeadId} (mine : h ∈ us) (st : HeadState) (s : State) : Confined us s (restHead st h s) :=
  (((setPlan_worked (P := fun _ => True) mine .empty s).frame.trans (putState_frame mine st _))).trans
    (modHead_frame mine (fun _ g => absurd g (by simp [Head.rest])) _)

theorem restHead_heads (st : HeadState) (h : HeadId) (s : State) :
    (restHead st h s).heads = s.heads.set h ({ s.head h with state := st } : Head).rest := by
  refine Four.eq_of_get fun k => ?_
  by_cases own : k = h
  · subst own; simp [restHead, State.head]
  · simp [restHead, own]

/-- A unit at rest: each head in its own state, its order and its gang left. -/
theorem head_goRest (st : HeadId → HeadState) (x : HeadId) (s : State) (k : HeadId) :
    (goRest st x s).head k =
      if k ∈ s.unit x then ({ s.head k with state := st k } : Head).rest else s.head k := by
  unfold goRest
  have unit : (dropRequests (Access.ofPrep x) s).unit x = s.unit x := unit_congr rfl
  exact head_eachHead (g := fun h m => ({ m with state := st h } : Head).rest)
    (fun h s => restHead_heads (st h) h s) _ (dropRequests (Access.ofPrep x) s) (unit_nodup s x) k

theorem goRest_worked {x : HeadId} {s : State} (within : s.unit x ⊆ us) {st : HeadId → HeadState}
    (rests : ∀ k, (st k).atRest = true) : Worked P us s (goRest st x s) := by
  refine ⟨(dropPrep_worked (P := fun _ => True) x s).frame.trans
      (.eachHead _ _ fun k hk t => restHead_frame (within hk) (st k) t),
    .rest x (fun k m => ?_) fun k m => ?_⟩
  · rw [head_goRest, if_pos m]
    exact ⟨rests k, rfl, rfl, rfl, rfl⟩
  · rw [head_goRest, if_neg m]

theorem restState_atRest (s : State) (k : HeadId) : (s.restState k).atRest = true := by
  unfold State.restState
  split <;> rfl

/-! ### Claims and the writes that close an order -/

theorem letGo_worked {x : HeadId} (mine : x ∈ us) (s : State) : Worked P us s (letGo x s) := by
  have freed : Worked P us s (modHead x (fun m => { m with claim := .none }) s) :=
    modHead_worked mine ⟨rfl, rfl, .inl⟩
  unfold letGo
  split
  · exact .refl ..
  · exact freed.trans (sendClaim_worked mine ..)
  · exact freed.trans (sendClaim_worked mine ..)

theorem kickTrace_worked {x : HeadId} (mine : x ∈ us) (s : State) : Worked P us s (kickTrace x s) := by
  unfold kickTrace
  dsimp only
  split
  · exact .refl ..
  · split
    · exact (modHead_worked mine ⟨rfl, rfl, .inl⟩).trans (requestWrite_worked ..)
    · exact .refl ..

theorem setClosing_worked {x : HeadId} (mine : x ∈ us) (c : Closing) (s : State) :
    Worked P us s (setClosing x c s) := modHead_worked mine ⟨rfl, rfl, .inl⟩

theorem putDone_worked {x : HeadId} (mine : x ∈ us) (c : Closing) (s : State) : Worked P us s (putDone x c s) :=
  (setClosing_worked mine ..).trans (requestWrite_worked ..)

theorem putFields_worked {x : HeadId} (mine : x ∈ us) (c : Closing) (s : State) :
    Worked P us s (putFields x c s) :=
  (setClosing_worked mine ..).trans (requestWrite_worked ..)

theorem putRows_worked {x : HeadId} (mine : x ∈ us) (c : Closing) (s : State) : Worked P us s (putRows x c s) := by
  unfold putRows
  dsimp only
  split
  · exact putFields_worked mine ..
  · exact (setClosing_worked mine ..).trans (requestWrite_worked ..)

theorem putEntry_worked (i : Nat) {x : HeadId} (mine : x ∈ us) (c : Closing) (s : State) :
    Worked P us s (putEntry i x c s) := by
  unfold putEntry
  split
  · exact putRows_worked mine ..
  · exact (setClosing_worked mine ..).trans (requestWrite_worked ..)

theorem beginClosing_worked {x : HeadId} (mine : x ∈ us) (c : Closing) (s : State) :
    Worked P us s (beginClosing x c s) := by
  have fixed : Worked P us s (modHead x (fun m => { m with outcomeFixed := true }) s) :=
    modHead_worked mine ⟨rfl, rfl, .inl⟩
  unfold beginClosing
  dsimp only
  split
  · exact fixed.trans (putFields_worked mine ..)
  · split
    · exact fixed.trans (putEntry_worked _ mine ..)
    · exact fixed.trans (setClosing_worked mine ..)

theorem beginResults_worked {x : HeadId} (mine : x ∈ us) (s : State) : Worked P us s (beginResults x s) := by
  unfold beginResults
  dsimp only
  split
  · exact .refl ..
  · exact beginClosing_worked mine ..

theorem closeBefore_worked (outcome : OrderOutcome) (reason : Reason) {x : HeadId} (mine : x ∈ us) (s : State) :
    Worked P us s (closeBefore outcome reason x s) := by
  unfold closeBefore
  dsimp only
  split
  · exact .refl ..
  · split
    · exact .refl ..
    · exact beginClosing_worked mine ..

/-! ### Halts -/

theorem haltHead_frame {h : HeadId} (mine : h ∈ us) (why : Reason) (s : State) : Confined us s (haltHead why h s) :=
  ((((putHaltReason_worked (P := fun _ => True) mine why s).frame).trans (putState_frame mine ..)).trans
    (modHead_frame mine (by exact fun _ g => g) _)).trans (modSense_worked (P := fun _ => True) mine ..).frame

/-- The heads of a unit halted one after another. -/
theorem haltHeads_worked {x : HeadId} {s : State} (within : s.unit x ⊆ us) (why : Reason) :
    Worked P us s (eachHead (haltHead why) (s.unit x) s) := by
  have heads := head_eachHead_haltHead why (s.unit x) s (unit_nodup s x)
  refine ⟨.eachHead _ s fun k hk t => haltHead_frame (within hk) why t,
    .shift x .halted rfl (.inl rfl) (fun k m => ?_) fun k m => ?_⟩
  · rw [heads, if_pos m]
    exact ⟨rfl, rfl, fun _ => ⟨rfl, rfl, rfl⟩⟩
  · rw [heads, if_neg m]

theorem haltPlan_worked {x : HeadId} (mine : x ∈ us) (why : Reason) (s : State) :
    Worked P us s (haltPlan why x s) := by
  have handed : ∀ p, Worked P us s (modHead x (fun m => { m with handed := some (Plan.haltClose why p).2 })
      (setPlan x (.built (p.haltClose why).1) s)) := fun p =>
    (setPlan_worked mine ..).trans (modHead_worked mine ⟨rfl, rfl, .inl⟩)
  unfold haltPlan
  split
  · split
    · exact .refl ..
    · exact handed _
    · exact handed _
  · exact .refl ..
  · exact .refl ..

theorem haltContact_worked {x : HeadId} (mine : x ∈ us) (s : State) : Worked P us s (haltContact x s) := by
  unfold haltContact
  split
  · exact modSense_worked mine ..
  · exact .refl ..

theorem dropCurrent_worked {x : HeadId} {s : State} (within : s.unit x ⊆ us) :
    Worked P us s (dropCurrent x s) :=
  eachUnit_worked within fun _ _ => ⟨rfl, rfl, .inl⟩

theorem haltOutcome_worked {x : HeadId} {s : State} (within : s.unit x ⊆ us) (why : Reason) :
    Worked P us s (haltOutcome why x s) := by
  unfold haltOutcome
  dsimp only
  split
  · exact .refl ..
  · split
    · exact .refl ..
    · split
      · exact beginClosing_worked (within (mem_unit_self s x)) ..
      · split
        · exact .refl ..
        · exact dropCurrent_worked within

theorem haltUnit_worked {x : HeadId} {s : State} (within : s.unit x ⊆ us) (why : Reason) :
    Worked P us s (haltUnit why x s) := by
  have mine := within (mem_unit_self s x)
  unfold haltUnit
  have told : Worked P us s (haltPlan why x (haltContact x s)) :=
    (haltContact_worked mine s).trans (haltPlan_worked mine ..)
  have unit : s.unit x = (haltPlan why x (haltContact x s)).unit x := by
    refine (unit_congr ?_).symm
    rw [haltPlan]
    (repeat' split) <;> simp
  rw [unit] at within ⊢
  refine (told.trans (haltHeads_worked within why)).trans ((raise_worked ..).trans (haltOutcome_worked ?_ why))
  exact List.Subset.trans (((haltHeads_worked (P := P) within why).trans (raise_worked ..)).frame.unit x) within

end

end Sys2Proof.Machine

namespace Sys2Proof.Machine

section
variable {P : HeadState → Prop} {us : List HeadId}

/-! ### Top reference -/

theorem changeTool_worked {h : HeadId} (mine : h ∈ us) (f : Tool → Tool) (s : State) :
    Worked P us s (changeTool h f s) := by
  unfold changeTool
  dsimp only
  split
  · exact (modTool_worked mine ..).trans ((raise_worked ..).trans (requestPart_worked ..))
  · exact modTool_worked mine ..

theorem countStroke_worked {h : HeadId} (mine : h ∈ us) (s : State) : Worked P us s (countStroke h s) :=
  (modSense_worked mine ..).trans (changeTool_worked mine ..)

theorem finishTop_worked {x : HeadId} {s : State} (within : s.unit x ⊆ us) : Worked P us s (finishTop x s) := by
  have gone : Worked P us s (letGo x s) := letGo_worked (within (mem_unit_self s x)) s
  unfold finishTop
  dsimp only
  refine gone.andThen within fun within' => ?_
  split
  · have counted : Worked P us (letGo x s) (eachHead countStroke ((letGo x s).unit x) (letGo x s)) :=
      .eachHead _ _ fun _ hk t => countStroke_worked (within' hk) t
    exact counted.andThen within' fun within'' => goRest_worked within'' (restState_atRest _)
  · exact goRest_worked within' (restState_atRest _)

theorem holdTop_worked {h : HeadId} (mine : h ∈ us) (s : State) : Worked P us s (holdTop h s) := by
  unfold holdTop
  split
  · exact modHead_worked mine ⟨rfl, rfl, fun _ => .inl ⟨rfl, rfl, rfl⟩⟩
  · exact .refl ..

theorem checkTop_worked {x : HeadId} {s : State} (within : s.unit x ⊆ us) : Worked P us s (checkTop x s) := by
  have held : Worked P us s (eachHead holdTop (s.unit x) s) :=
    .eachHead _ s fun _ hk t => holdTop_worked (within hk) t
  unfold checkTop
  dsimp only
  split
  · exact held.andThen within finishTop_worked
  · exact held

theorem rise_worked {x : HeadId} {s : State} (within : s.unit x ⊆ us) {st : HeadState} (working : st.atRest = false)
    (allowed : P st) : Worked P us s (rise st x s) := by
  unfold rise
  refine (enterState_worked within working (.inr allowed)).andThen within fun w1 => ?_
  refine (armGuards_worked w1).andThen w1 fun w2 => ?_
  exact (eachUnit_worked w2 (f := fun _ m => { m with atTop := false }) fun _ _ => ⟨rfl, rfl, .inl⟩).andThen w2
    checkTop_worked

/-! ### An order ended before its stroke -/

theorem endWork_worked {x : HeadId} {s : State} (within : s.unit x ⊆ us) : Worked P us s (endWork x s) := by
  unfold endWork
  extract_lets a b c d
  have mine := within (mem_unit_self s x)
  have hb : Worked P us s b := (dropPrep_worked x s).trans
    (.eachHead _ _ fun _ hk t => modSense_worked (within hk) Sense.abandonTare t)
  have hc : Worked P us b c := by
    unfold c
    split
    · exact setPlan_worked mine ..
    · exact .refl ..
    · exact .refl ..
  exact ((hb.trans hc).trans (letGo_worked mine c)).trans (modHead_worked mine ⟨rfl, rfl, .inl⟩)

theorem refuse_worked (outcome : OrderOutcome) (reason : Reason) {x : HeadId} {s : State} (within : s.unit x ⊆ us) :
    Worked P us s (refuse outcome reason x s) :=
  (endWork_worked within).trans (closeBefore_worked _ _ (within (mem_unit_self s x)) _)

theorem stopBefore_worked (reason : Reason) {st : HeadId → HeadState} (rests : ∀ k, (st k).atRest = true)
    {x : HeadId} {s : State} (within : s.unit x ⊆ us) : Worked P us s (stopBefore reason st x s) :=
  ((endWork_worked within).trans (closeBefore_worked _ _ (within (mem_unit_self s x)) _)).andThen within
    fun w => goRest_worked w rests

theorem haltStill_heads (h : HeadId) (s : State) :
    (haltStill h s).heads = s.heads.set h ((s.head h).haltedFor .haltCmd) := haltHead_heads ..

/-- A unit brought to HALTED without motion. -/
theorem head_eachHaltStill (x : HeadId) (s : State) (k : HeadId) :
    (eachHead haltStill (s.unit x) s).head k =
      if k ∈ s.unit x then (s.head k).haltedFor .haltCmd else s.head k :=
  head_eachHead (g := fun _ m => m.haltedFor .haltCmd) haltStill_heads _ s (unit_nodup s x) k

theorem haltStills_worked {x : HeadId} {s : State} (within : s.unit x ⊆ us) :
    Worked P us s (eachHead haltStill (s.unit x) s) := by
  refine ⟨.eachHead _ s fun k hk t =>
      (setPlan_worked (P := fun _ => True) (within hk) ..).frame.trans (haltHead_frame (within hk) ..),
    .shift x .halted rfl (.inl rfl) (fun k m => ?_) fun k m => ?_⟩
  · rw [head_eachHaltStill, if_pos m]
    exact ⟨rfl, rfl, fun _ => ⟨rfl, rfl, rfl⟩⟩
  · rw [head_eachHaltStill, if_neg m]

theorem head_endWork_gang (x : HeadId) (s : State) (k : HeadId) : ((endWork x s).head k).gang = (s.head k).gang := by
  have senses : ∀ (hs : List HeadId) (t : State),
      (eachHead (fun h => modSense h Sense.abandonTare) hs t).heads = t.heads := fun hs t =>
    eachHead_keeps (P := fun u => u.heads = t.heads) (f := fun h => modSense h Sense.abandonTare)
      (fun _ _ same => same) hs t rfl
  have own : ∀ f : Head → Head, (∀ m, (f m).gang = m.gang) → ∀ t, ((modHead x f t).head k).gang = (t.head k).gang := by
    intro f keeps t
    by_cases e : k = x
    · subst e; simp [keeps]
    · simp [e]
  have gone : ∀ t, ((letGo x t).head k).gang = (t.head k).gang := by
    intro t
    unfold letGo
    split
    · rfl
    · simpa using own (fun m => { m with claim := .none }) (fun _ => rfl) t
    · simpa using own (fun m => { m with claim := .none }) (fun _ => rfl) t
  unfold endWork
  extract_lets a b c d
  have hc : c.heads = s.heads := by
    unfold c
    split
    · exact senses ..
    · exact senses ..
    · exact senses ..
  rw [own _ (by exact fun _ => rfl), gone, State.head, hc]
  rfl

theorem head_beginClosing (x : HeadId) (c : Closing) (s : State) (k : HeadId) :
    ∃ stage, (beginClosing x c s).head k =
      if k = x then { s.head k with outcomeFixed := true, closing := some { c with stage := stage } }
      else s.head k := by
  obtain ⟨stage, touched⟩ := beginClosing_notes x c s
  refine ⟨stage, ?_⟩
  rw [touched.head]
  by_cases e : k = x
  · subst e; simp [setClosing]
  · simp [setClosing, e]

theorem head_closeBefore_gang (outcome : OrderOutcome) (reason : Reason) (x : HeadId) (s : State) (k : HeadId) :
    ((closeBefore outcome reason x s).head k).gang = (s.head k).gang := by
  unfold closeBefore
  dsimp only
  split
  · rfl
  · split
    · rfl
    · next o _ _ =>
      obtain ⟨stage, e⟩ := head_beginClosing x
        { order := o, result := HandOver.bare outcome reason, contactDepth := 0, seatDepth := 0,
          stroke := false, stage := .fields } s k
      rw [e]
      split <;> rfl

theorem haltBefore_worked {x : HeadId} {s : State} (within : s.unit x ⊆ us) : Worked P us s (haltBefore x s) := by
  have closed : Worked P us s (closeBefore .aborted .haltCmd x (endWork x s)) :=
    (endWork_worked within).trans (closeBefore_worked _ _ (within (mem_unit_self s x)) _)
  have unit : s.unit x = (closeBefore .aborted .haltCmd x (endWork x s)).unit x :=
    (unit_congr ((head_closeBefore_gang ..).trans (head_endWork_gang ..))).symm
  unfold haltBefore
  rw [unit] at within ⊢
  exact closed.trans ((haltStills_worked within).trans (raise_worked ..))

/-! ### PREPARE -/

theorem startPlan_worked {x : HeadId} (mine : x ∈ us) (s : State) : Worked P us s (startPlan x s) := by
  unfold startPlan
  split
  · exact .refl ..
  · exact ((modHead_worked mine ⟨rfl, rfl, .inl⟩).trans (setPlan_worked mine ..)).trans (requestRead_worked ..)

theorem startTares_worked {x : HeadId} {s : State} (within : s.unit x ⊆ us) : Worked P us s (startTares x s) := by
  have mine := within (mem_unit_self s x)
  unfold startTares
  dsimp only
  split
  · exact startPlan_worked mine s
  · exact (modHead_worked mine ⟨rfl, rfl, .inl⟩).trans
      (.eachHead _ _ fun _ hk t => modSense_worked (within (List.mem_of_mem_filter hk)) _ t)

theorem lookTools_worked {x : HeadId} {s : State} (within : s.unit x ⊆ us) : Worked P us s (lookTools x s) := by
  unfold lookTools
  split
  · exact .refl ..
  · dsimp only
    split
    · exact .refl ..
    · split
      · exact refuse_worked _ _ within
      · split
        · exact startTares_worked within
        · exact refuse_worked _ _ within

theorem taresDone_worked {x : HeadId} (mine : x ∈ us) (s : State) : Worked P us s (taresDone x s) := by
  unfold taresDone
  split
  · exact startPlan_worked mine s
  · exact .refl ..

theorem enterZoneWait_worked {x : HeadId} {s : State} (within : s.unit x ⊆ us) (allowed : P .zoneWait) :
    Worked P us s (enterZoneWait x s) := by
  have mine := within (mem_unit_self s x)
  unfold enterZoneWait
  dsimp only
  refine Worked.andThen (t := modHead x (fun m => { m with prep := .none }) s)
    (modHead_worked mine ⟨rfl, rfl, .inl⟩) within fun w1 => ?_
  refine (enterState_worked w1 rfl (.inr allowed)).andThen w1 fun w2 => ?_
  split
  · exact .refl ..
  · split
    · exact refuse_worked _ _ w2
    · exact (modHead_worked mine ⟨rfl, rfl, .inl⟩).trans (sendClaim_worked mine ..)

theorem planBuilt_worked {x : HeadId} {s : State} (within : s.unit x ⊆ us) (p : Plan) (allowed : P .zoneWait) :
    Worked P us s (planBuilt x p s) := by
  unfold planBuilt
  dsimp only
  refine Worked.andThen (t := setPlan x (.built p) s)
    (setPlan_worked (within (mem_unit_self s x)) ..) within fun w => ?_
  split
  · exact refuse_worked _ _ w
  · exact enterZoneWait_worked w allowed

/-! ### The start -/

theorem readForStart_worked (byPair : Bool) {x : HeadId} (mine : x ∈ us) (s : State) :
    Worked P us s (readForStart byPair x s) := by
  unfold readForStart
  split
  · exact .refl ..
  · exact (modHead_worked mine ⟨rfl, rfl, .inl⟩).trans (requestRead_worked ..)

theorem tryStart_worked {x : HeadId} (mine : x ∈ us) (s : State) : Worked P us s (tryStart x s) := by
  unfold tryStart
  split
  · exact readForStart_worked _ mine s
  · exact .refl ..

theorem offerStart_worked {x : HeadId} (mine : x ∈ us) (s : State) : Worked P us s (offerStart x s) := by
  unfold offerStart
  split
  · exact readForStart_worked _ mine s
  · exact .refl ..

theorem beginApproach_worked (byPair : Bool) {x : HeadId} {s : State} (within : s.unit x ⊆ us) (allowed : P .approach) :
    Worked P us s (beginApproach byPair x s) := by
  unfold beginApproach
  dsimp only
  refine (dropPrep_worked x s).andThen within fun w1 => ?_
  refine (enterState_worked w1 rfl (.inr allowed)).andThen w1 fun w2 => ?_
  refine (armGuards_worked w2).andThen w2 fun w3 => ?_
  refine (eachUnit_worked w3 (f := fun _ => Head.approach byPair (rowSizeOf (s.unitTines x))) fun _ _ => ⟨rfl, rfl, .inl⟩).andThen w3 fun w4 => ?_
  exact .eachHead _ _ fun _ hk t => modSense_worked (w4 hk) _ t

theorem enterApproach_worked (byPair : Bool) {x : HeadId} {s : State} (within : s.unit x ⊆ us) (allowed : P .approach) :
    Worked P us s (enterApproach byPair x s) := by
  have begun : Worked P us s (beginApproach byPair x s) := beginApproach_worked byPair within allowed
  unfold enterApproach
  dsimp only
  split
  · exact begun
  · exact begun.andThen within fun w => haltUnit_worked w _
  · exact begun.andThen within fun w => haltUnit_worked w _
  · exact (begun.trans (choices_worked ..)).andThen within fun w => haltUnit_worked w _

/-! ### The chain reader -/

theorem requestLink_worked (s : State) : Worked P us s (requestLink s) :=
  (modReader_worked ..).trans (requestRead_worked ..)

theorem readerFault_worked (why : ChainFault) (s : State) : Worked P us s (readerFault why s) :=
  (changeReader_worked ..).trans (raise_worked ..)

theorem stopAdvance_worked (s : State) : Worked P us s (stopAdvance s) := by
  unfold stopAdvance
  split
  · split
    · exact (modReader_worked ..).trans (requestWrite_worked ..)
    · exact changeReader_worked ..
  · exact .refl ..

theorem dispose_worked (record : Nat) (s : State) : Worked P us s (dispose record s) := by
  unfold dispose
  dsimp only
  split
  · exact (changeReader_worked ..).trans (requestLink_worked ..)
  · exact (changeReader_worked ..).trans (stopAdvance_worked ..)

theorem rejectOrder_worked (record : Nat) (outcome : OrderOutcome) (reason : Reason) (s : State) :
    Worked P us s (rejectOrder record outcome reason s) :=
  (modReader_worked ..).trans (requestWrite_worked ..)

theorem takeNow_worked (o : Order) (s : State) : Worked P us s (takeNow o s) :=
  (modReader_worked ..).trans (requestWrite_worked ..)

theorem takeOrHold_worked (o : Order) (s : State) : Worked P us s (takeOrHold o s) := by
  unfold takeOrHold
  split
  · exact takeNow_worked ..
  · exact changeReader_worked ..

theorem leaveHeld_worked (s : State) : Worked P us s (leaveHeld s) := by
  unfold leaveHeld
  split
  · split
    · exact (changeReader_worked ..).trans (requestRead_worked ..)
    · exact .refl ..
  · exact .refl ..

theorem recordOutcome_worked (o : Order) (s : State) : Worked P us s (recordOutcome o s) :=
  ((changeReader_worked ..).trans (raise_worked ..)).trans (leaveHeld_worked ..)

theorem readerStop_worked (why : Reason) (s : State) : Worked P us s (readerStop why s) :=
  ((dropReads_worked s).trans (changeReader_worked ..)).trans (stopAdvance_worked ..)

theorem stopReader_worked (why : Reason) (s : State) : Worked P us s (stopReader why s) := by
  unfold stopReader
  split
  · exact .refl ..
  · exact readerStop_worked ..

theorem readerRun_worked (s : State) : Worked P us s (readerRun s) :=
  (changeReader_worked ..).trans (requestLink_worked ..)

theorem readerNudge_worked (s : State) : Worked P us s (readerNudge s) := by
  unfold readerNudge
  split
  · exact (changeReader_worked ..).trans (requestLink_worked ..)
  · exact modReader_worked ..
  · exact modReader_worked ..
  · exact .refl ..
  · exact .refl ..

theorem endOfChain_worked (s : State) : Worked P us s (endOfChain s) := by
  unfold endOfChain
  dsimp only
  split
  · exact (modReader_worked ..).trans (requestLink_worked ..)
  · split
    · exact (changeReader_worked ..).trans (raise_worked ..)
    · exact changeReader_worked ..

theorem linkFound_worked (link : Option Word) (s : State) : Worked P us s (linkFound link s) := by
  unfold linkFound
  split
  · exact readerFault_worked ..
  · split
    · exact endOfChain_worked s
    · split
      · exact (modReader_worked ..).trans (requestRead_worked ..)
      · exact readerFault_worked ..

theorem orderFetched_worked (data : Option (List Byte)) (s : State) : Worked P us s (orderFetched data s) := by
  unfold orderFetched
  split
  · split
    · exact readerFault_worked ..
    · next d =>
      by_cases turn : recordTurn d = if s.reader.expectedTurn = true then 1 else 0
      · rw [if_pos turn]
        split
        · exact rejectOrder_worked ..
        · exact (modReader_worked ..).trans (requestRead_worked ..)
      · rw [if_neg turn]
        exact readerFault_worked ..
  · exact .refl ..

theorem tableRead_worked (data : Option (List Byte)) (s : State) : Worked P us s (tableRead data s) := by
  unfold tableRead
  split
  · exact readerFault_worked ..
  · split
    · split
      · exact rejectOrder_worked ..
      · exact (modReader_worked ..).trans (requestRead_worked ..)
    · dsimp only
      split
      · exact rejectOrder_worked ..
      · split
        · exact rejectOrder_worked ..
        · split
          · exact rejectOrder_worked ..
          · exact takeOrHold_worked ..
    · exact .refl ..

theorem heldRead_worked (value : Option Byte) (s : State) : Worked P us s (heldRead value s) := by
  unfold heldRead
  split
  · exact .refl ..
  · split
    · exact readerFault_worked ..
    · split
      · exact takeNow_worked ..
      · exact rejectOrder_worked ..

theorem takenWritten_worked (s : State) : Worked P us s (takenWritten s) := by
  unfold takenWritten
  split
  · exact (modReader_worked ..).trans (dispose_worked ..)
  · exact .refl ..

theorem rejectWritten_worked (s : State) : Worked P us s (rejectWritten s) := by
  unfold rejectWritten
  split
  · exact (modReader_worked ..).trans (requestWrite_worked ..)
  · exact ((modReader_worked ..).trans (raise_worked ..)).trans (dispose_worked ..)
  · exact .refl ..

theorem stopWritten_worked (s : State) : Worked P us s (stopWritten s) := by
  unfold stopWritten
  split
  · split
    · exact (modReader_worked ..).trans (stopAdvance_worked ..)
    · exact (modReader_worked ..).trans (requestWrite_worked ..)
  · exact ((changeReader_worked ..).trans (raise_worked ..)).trans (stopAdvance_worked ..)
  · exact .refl ..

/-! ### The report, and what reaches every head -/

theorem afterReport_worked {x : HeadId} {s : State} (within : s.unit x ⊆ us)
    (allowed : (s.head x).state.inMotion = true → P .retract) : Worked P us s (afterReport x s) := by
  unfold afterReport
  split
  case h_1 e => exact rise_worked within rfl (allowed (by rw [e]; rfl))
  case h_2 e => exact rise_worked within rfl (allowed (by rw [e]; rfl))
  case h_3 e => exact rise_worked within rfl (allowed (by rw [e]; rfl))
  case h_4 => exact goRest_worked within (restState_atRest s)
  case h_5 => exact goRest_worked within (restState_atRest s)
  case h_6 => exact goRest_worked within (restState_atRest s)
  case h_7 => exact dropCurrent_worked within
  all_goals exact .refl ..

theorem recordOutcome_heads (o : Order) (s : State) : (recordOutcome o s).heads = s.heads := by
  obtain ⟨_, _, _, _, e⟩ := recordOutcome_touches o s
  rw [e]

theorem report_worked {x : HeadId} {s : State} (within : s.unit x ⊆ us) (c : Closing)
    (allowed : (s.head x).state.inMotion = true → P .retract) : Worked P us s (report x c s) := by
  have mine := within (mem_unit_self s x)
  unfold report
  refine ((modHead_worked mine ⟨rfl, rfl, .inl⟩).trans (recordOutcome_worked ..)).andThen within fun w =>
    afterReport_worked w fun motion => allowed ?_
  simpa [State.head, recordOutcome_heads] using motion

theorem eachLead_worked {f : HeadId → State → State} (s : State)
    (each : ∀ h t, Worked P us t (f h t)) : Worked P us s (eachLead f s) := by
  refine .eachHead _ s fun h _ t => ?_
  split
  · exact each h t
  · exact .refl ..

/-- Every head is one of all. -/
theorem subset_all (hs : List HeadId) : hs ⊆ HeadId.all := fun h _ => HeadId.mem_all h

theorem stopUnit_worked (why : Reason) {x : HeadId} {s : State} (within : s.unit x ⊆ us) :
    Worked P us s (stopUnit why x s) := by
  unfold stopUnit
  dsimp only
  split
  · exact haltUnit_worked within why
  · split
    · exact stopBefore_worked why (fun _ => rfl) within
    · split
      · exact goRest_worked within fun _ => rfl
      · exact .refl ..

theorem carry_worked (why : Reason) (s : State) : Worked P HeadId.all s (carry why s) :=
  (eachLead_worked s fun _ _ => stopUnit_worked why (subset_all _)).trans (stopReader_worked ..)

theorem toolSeen_worked {h : HeadId} {s : State} (within : s.unit (s.lead h) ⊆ us) :
    Worked P us s (toolSeen h s) := by
  unfold toolSeen
  dsimp only
  split
  · exact lookTools_worked within
  · split
    · exact refuse_worked _ _ within
    · exact .refl ..

theorem moveTool_worked (h : HeadId) (f : Tool → Tool) (s : State) : Worked P HeadId.all s (moveTool h f s) := by
  unfold moveTool
  dsimp only
  split
  · exact changeTool_worked h.mem_all ..
  · exact (changeTool_worked h.mem_all ..).trans (toolSeen_worked (subset_all _))

end

end Sys2Proof.Machine

/-! ## The stroke's operations -/

namespace Sys2Proof.Machine

section
variable {P : HeadState → Prop} {us : List HeadId}

theorem convertersDone_worked (x : HeadId) (done : Converted) (s : State) :
    Worked P HeadId.all s (convertersDone x done s) := by
  unfold convertersDone
  dsimp only
  split
  · exact (modSense_worked x.mem_all ..).trans (modSense_worked (HeadId.mem_all _) ..)
  · exact modSense_worked x.mem_all ..

theorem fireScan_worked (kind : ScanKind) (x : HeadId) (s : State) :
    Worked P HeadId.all s (fireScan kind x s) := by
  have step : ∀ (b : Bool) (k : HeadId) (f : Sense → Sense) (t : State),
      Worked P HeadId.all t (if b = true then modSense k f t else t) := by
    intro b k f t
    split
    · exact modSense_worked k.mem_all ..
    · exact .refl ..
  unfold fireScan
  extract_lets gang ownBusy compBusy own comp a b c
  have ha : Worked P HeadId.all s a := step ..
  have hb : Worked P HeadId.all a b := step ..
  have hc : Worked P HeadId.all b c := step ..
  exact ((ha.trans hb).trans hc).trans (step ..)

theorem stepTrigger_worked (x : HeadId) (pitch : Nat) (before : Int) (s : State) :
    Worked P HeadId.all s (stepTrigger x pitch before s) := by
  unfold stepTrigger
  dsimp only
  split
  · exact (fireScan_worked ..).trans (modSense_worked x.mem_all ..)
  · exact .refl ..

theorem reloadGuard_worked {h : HeadId} (mine : h ∈ us) (edge : EncoderEdge) (s : State) :
    Worked P us s (reloadGuard edge h s) := by
  unfold reloadGuard
  refine modHead_worked mine ?_
  split
  · exact ⟨rfl, rfl, .inl⟩
  · exact Head.steadyTo_refl _

theorem skewCheck_worked {x : HeadId} {s : State} (within : s.unit x ⊆ us) : Worked P us s (skewCheck x s) := by
  unfold skewCheck
  dsimp only
  split
  · exact haltUnit_worked within _
  · exact .refl ..

theorem edgeAccepted_worked (h : HeadId) (edge : EncoderEdge) (done : Converted) (s : State) :
    Worked P HeadId.all s (edgeAccepted h edge done s) := by
  unfold edgeAccepted
  extract_lets x before a b c d
  have ha : Worked P HeadId.all s a := convertersDone_worked ..
  have hb : Worked P HeadId.all a b := modSense_worked h.mem_all ..
  have hc : Worked P HeadId.all b c := reloadGuard_worked h.mem_all ..
  have hd : Worked P HeadId.all c d := by
    unfold d
    split
    · exact stepTrigger_worked ..
    · exact .refl ..
  exact (((ha.trans hb).trans hc).trans hd).trans (skewCheck_worked (subset_all _))

theorem haltIn_worked {x : HeadId} {s : State} (within : s.unit x ⊆ us) (inStates : HeadState → Bool) (why : Reason) :
    Worked P us s (haltIn inStates why x s) := by
  unfold haltIn
  split
  · exact haltUnit_worked within why
  · exact .refl ..

theorem timedScan_worked (h : HeadId) (done : Converted) (s : State) :
    Worked P HeadId.all s (timedScan h done s) := by
  unfold timedScan tareScan
  split
  · split
    · exact .refl ..
    · exact modSense_worked h.mem_all ..
  · split
    · exact (convertersDone_worked ..).trans (fireScan_worked ..)
    · exact .refl ..

theorem endFiring_worked (x : HeadId) (f : Firing) (rest : List Firing) (s : State) :
    Worked P HeadId.all s (endFiring x f rest s) := by
  unfold endFiring
  dsimp only
  split
  · exact (modSense_worked x.mem_all ..).trans (modSense_worked (HeadId.mem_all _) ..)
  · exact modSense_worked x.mem_all ..

theorem makeSample_worked (x : HeadId) (f : Firing) (own companion : List Raw) (reverse : Bool) (s : State) :
    Worked P HeadId.all s (makeSample x f own companion reverse s).2 := by
  have warned : ∀ (b : Bool) (t : State), Worked P HeadId.all t (if b = true then raise .chwarn t else t) := by
    intro b t
    split
    · exact raise_worked ..
    · exact .refl ..
  unfold makeSample
  extract_lets c t0 o a b y gang t1 comp d e sum smp
  have ha : Worked P HeadId.all s a := modSense_worked x.mem_all ..
  have hb : Worked P HeadId.all a b := warned ..
  have hd : Worked P HeadId.all b d := by
    unfold d
    split
    · exact modSense_worked y.mem_all ..
    · exact .refl ..
  have he : Worked P HeadId.all d e := warned ..
  have hf : Worked P HeadId.all e (modSense x (fun n => { n with peak := max n.peak sum, latest := sum }) e) :=
    modSense_worked x.mem_all ..
  exact (((ha.trans hb).trans hd).trans he).trans hf

theorem modPlan_worked {x : HeadId} (mine : x ∈ us) (f : Plan → Plan) (s : State) : Worked P us s (modPlan x f s) := by
  unfold modPlan
  split
  · exact setPlan_worked mine ..
  · exact .refl ..
  · exact .refl ..

theorem addRows_worked {x : HeadId} (mine : x ∈ us) (o : Order) (smps : List Sample) (s : State) :
    Worked P us s (addRows x o smps s) := modHead_worked mine ⟨rfl, rfl, .inl⟩

theorem markFaulted_worked {x : HeadId} (mine : x ∈ us) (s : State) : Worked P us s (markFaulted x s) :=
  modPlan_worked mine ..

theorem takeSample_worked {x : HeadId} (mine : x ∈ us) (o : Order) (smp : Sample) (s : State) :
    Worked P us s (takeSample x o smp s) := (modPlan_worked mine ..).trans (addRows_worked mine ..)

theorem takeReplay_worked {x : HeadId} (mine : x ∈ us) (o : Order) (smps : List Sample) (s : State) :
    Worked P us s (takeReplay x o smps s) := (modPlan_worked mine ..).trans (addRows_worked mine ..)

theorem closePress_worked {x : HeadId} (mine : x ∈ us) (o : Order) (smp : Sample) (seated : Bool) (s : State) :
    Worked P us s (closePress x o smp seated s) := by
  unfold closePress
  split
  · exact (setPlan_worked mine ..).trans (modHead_worked mine ⟨rfl, rfl, .inl⟩)
  · exact .refl ..
  · exact .refl ..

/-- Other outputs at a unit in a motion state. -/
theorem setDrive_worked {x : HeadId} {s : State} (within : s.unit x ⊆ us) (d : Drive)
    (motion : (s.head x).state.inMotion = true) : Worked P us s (setDrive d x s) := by
  have same : ∀ k, ((setDrive d x s).head k).state = (s.head k).state ∧
      ((setDrive d x s).head k).gang = (s.head k).gang := fun k => by
    rw [head_setDrive]
    split <;> exact ⟨rfl, rfl⟩
  refine ⟨setDrive_frame within d, fun together h gang => ?_, fun together held k out => ?_, fun k => .inl (same k).1⟩
  · simp only [same] at *
    exact together h gang
  · rw [(same k).1] at out
    have other : k ∉ s.unit x := fun m => by
      rw [state_of_mem_unit together m, motion] at out
      cases out
    rw [head_setDrive, if_neg other]
    exact held k out

theorem stopRam_worked {x : HeadId} {s : State} (within : s.unit x ⊆ us)
    (motion : (s.head x).state.inMotion = true) : Worked P us s (stopRam x s) :=
  (setDrive_worked within Drive.held motion).andThen within fun w => (disarmGuards_worked w).trans
    (modSense_worked (within (mem_unit_self s x)) ..)

theorem closePress_state (x : HeadId) (o : Order) (smp : Sample) (seated : Bool) (s : State) :
    ((closePress x o smp seated s).head x).state = (s.head x).state := by
  unfold closePress
  split <;> simp

/-- In a motion state, and so allowed to go on to any other of the stroke. -/
theorem endPress_worked {x : HeadId} {s : State} (within : s.unit x ⊆ us) (o : Order) (smp : Sample) (seated : Bool)
    (motion : (s.head x).state.inMotion = true) (allowed : P .dwell) : Worked P us s (endPress x o smp seated s) := by
  have mine := within (mem_unit_self s x)
  unfold endPress
  dsimp only
  refine (closePress_worked mine o smp seated s).andThen within fun w1 => ?_
  refine (stopRam_worked w1 ((congrArg _ (closePress_state ..)).trans motion)).andThen w1 fun w2 => ?_
  split
  · exact beginResults_worked mine _
  · exact (enterState_worked w2 rfl (.inr allowed)).trans (modHead_worked mine ⟨rfl, rfl, .inl⟩)

theorem pressTests_worked {x : HeadId} {s : State} (within : s.unit x ⊆ us) (o : Order) (smp : Sample)
    (race : SampleRace) (motion : (s.head x).state.inMotion = true) (allowed : P .dwell) :
    Worked P us s (pressTests x o smp race s) := by
  unfold pressTests
  dsimp only
  split
  · exact endPress_worked within o smp _ motion allowed
  · split
    · exact haltUnit_worked within _
    · exact .refl ..

theorem modPlan_heads (x : HeadId) (f : Plan → Plan) (s : State) : (modPlan x f s).heads = s.heads := by
  unfold modPlan
  split <;> rfl

theorem state_takeSample (x : HeadId) (o : Order) (smp : Sample) (s : State) :
    ((takeSample x o smp s).head x).state = (s.head x).state := by
  simp [takeSample, addRows, State.head, modPlan_heads]

theorem state_takeReplay (x : HeadId) (o : Order) (smps : List Sample) (s : State) :
    ((takeReplay x o smps s).head x).state = (s.head x).state := by
  simp [takeReplay, addRows, State.head, modPlan_heads]

theorem pressSample_worked {x : HeadId} {s : State} (within : s.unit x ⊆ us) (o : Order) (smp : Sample)
    (race : SampleRace) (motion : (s.head x).state.inMotion = true) (allowed : P .dwell) :
    Worked P us s (pressSample x o smp race s) := by
  have mine := within (mem_unit_self s x)
  have taken : Worked P us s (markFaulted x (takeSample x o smp s)) :=
    (takeSample_worked mine ..).trans (markFaulted_worked mine _)
  have before : Worked P us s
      (if race.evaluatorFirst = true then markFaulted x (takeSample x o smp s) else markFaulted x s) := by
    split
    · exact taken
    · exact markFaulted_worked mine s
  unfold pressSample
  dsimp only
  split
  · exact before.andThen within fun w => haltUnit_worked w _
  · split
    · exact before.andThen within fun w => haltUnit_worked w _
    · refine taken.andThen within fun w => pressTests_worked w o smp race ?_ allowed
      rw [State.head, markFaulted, modPlan_heads]
      exact (congrArg _ (state_takeSample x o smp s)).trans motion

theorem confirmContact_worked {x : HeadId} {s : State} (within : s.unit x ⊆ us) (o : Order) (smp : Sample)
    (race : SampleRace) (press : P .press) (dwell : P .dwell) :
    Worked P us s (confirmContact x o smp race s) := by
  have mine := within (mem_unit_self s x)
  unfold confirmContact
  extract_lets dc replay a b c
  have ha : Worked P us s a := modHead_worked mine ⟨rfl, rfl, .inl⟩
  have hb : Worked P us a b := enterState_worked (List.Subset.trans (ha.frame.unit x) within) rfl (.inr press)
  have hc : Worked P us s c := (ha.trans hb).trans (modPlan_worked mine ..)
  have inPress : (c.head x).state = .press := by
    simp only [c, State.head, modPlan_heads]
    exact (congrArg Head.state (head_enterState .press x a x)).trans (by simp [mem_unit_self, Head.drive])
  have tests : ∀ smps, Worked P us s (pressTests x o smp race (takeReplay x o smps c)) := fun smps =>
    (hc.trans (takeReplay_worked mine o smps c)).andThen within fun w =>
      pressTests_worked w o smp race (by rw [state_takeReplay, inPress]; rfl) dwell
  split
  · exact tests _
  · dsimp only
    split
    · exact ((hc.trans (choices_worked ..)).trans (takeReplay_worked mine ..)).andThen within fun w =>
        haltUnit_worked w _
    · exact tests _

theorem noContact_worked {x : HeadId} {s : State} (within : s.unit x ⊆ us)
    (motion : (s.head x).state.inMotion = true) : Worked P us s (noContact x s) := by
  have mine := within (mem_unit_self s x)
  unfold noContact
  split
  · next p _ =>
    have handed : Worked P us s (modHead x (fun m => { m with handed := some p.noContact.2 })
        (setPlan x (.built p.noContact.1) s)) :=
      (setPlan_worked mine ..).trans (modHead_worked mine ⟨rfl, rfl, .inl⟩)
    exact (handed.andThen within fun w => stopRam_worked w (by simpa using motion)).trans
      (beginResults_worked mine _)
  · exact .refl ..
  · exact .refl ..

theorem seekSample_worked {x : HeadId} {s : State} (within : s.unit x ⊆ us) (o : Order) (smp : Sample)
    (race : SampleRace) (motion : (s.head x).state.inMotion = true) (press : P .press) (dwell : P .dwell) :
    Worked P us s (seekSample x o smp race s) := by
  have mine := within (mem_unit_self s x)
  unfold seekSample
  extract_lets a
  have ha : Worked P us s a := modSense_worked mine ..
  refine ha.andThen within fun w => ?_
  split
  · exact haltUnit_worked w _
  · split
    · exact confirmContact_worked w o smp race press dwell
    · split
      · exact noContact_worked w motion
      · exact .refl ..

theorem approachSample_worked {x : HeadId} {s : State} (within : s.unit x ⊆ us) (o : Order) (smp : Sample)
    (race : SampleRace) (seek : P .seek) (press : P .press) (dwell : P .dwell) :
    Worked P us s (approachSample x o smp race s) := by
  have mine := within (mem_unit_self s x)
  unfold approachSample
  split
  · refine ((enterState_worked within rfl (.inr seek)).trans (modSense_worked mine ..)).andThen within fun w =>
      seekSample_worked w o smp race ?_ press dwell
    rw [head_modSense, head_enterState, if_pos (mem_unit_self s x)]
    rfl
  · split
    · exact haltUnit_worked within _
    · exact .refl ..

theorem stepSample_worked {x : HeadId} {s : State} (within : s.unit x ⊆ us) (smp : Sample) (race : SampleRace)
    (allowed : (s.head x).state.inMotion = true → P .seek ∧ P .press ∧ P .dwell) :
    Worked P us s (stepSample x smp race s) := by
  have mine := within (mem_unit_self s x)
  have marked : ∀ t, (markFaulted x t).head x = t.head x := fun t => by rw [State.head, markFaulted, modPlan_heads]; rfl
  unfold stepSample
  extract_lets a
  have ha : Worked P us s a := modSense_worked mine ..
  refine ha.andThen within fun w => ?_
  split
  · exact .refl ..
  · split
    case h_1 e =>
      obtain ⟨seek, press, dwell⟩ := allowed (by rw [← head_modSense, e]; rfl)
      exact ((markFaulted_worked mine _).andThen w fun w2 => approachSample_worked w2 _ smp race seek press dwell).trans
        (kickTrace_worked mine _)
    case h_2 e =>
      obtain ⟨_, press, dwell⟩ := allowed (by rw [← head_modSense, e]; rfl)
      exact ((markFaulted_worked mine _).andThen w fun w2 =>
        seekSample_worked w2 _ smp race (by rw [marked, e]; rfl) press dwell).trans (kickTrace_worked mine _)
    case h_3 e =>
      obtain ⟨_, _, dwell⟩ := allowed (by rw [← head_modSense, e]; rfl)
      exact (pressSample_worked w _ smp race (by rw [e]; rfl) dwell).trans (kickTrace_worked mine _)
    all_goals exact .refl ..

theorem forceTest_worked {x : HeadId} {s : State} (within : s.unit x ⊆ us) (smp : Sample) :
    Worked P us s (forceTest x smp s) := by
  unfold forceTest
  split
  · exact .refl ..
  · split
    · exact haltUnit_worked within _
    · exact .refl ..

theorem lateSample_worked {x : HeadId} {s : State} (within : s.unit x ⊆ us) (smp : Sample) :
    Worked P us s (lateSample x smp s) := by
  unfold lateSample
  split
  · exact (modSense_worked (within (mem_unit_self s x)) ..).andThen within fun w => forceTest_worked w smp
  · exact forceTest_worked within smp

theorem head_makeSample (x : HeadId) (f : Firing) (own companion : List Raw) (reverse : Bool) (s : State) :
    (makeSample x f own companion reverse s).2.heads = s.heads := by
  unfold makeSample
  dsimp only
  (repeat' split) <;> rfl

theorem head_endFiring (x : HeadId) (f : Firing) (rest : List Firing) (s : State) :
    (endFiring x f rest s).heads = s.heads := by
  unfold endFiring
  dsimp only
  split <;> rfl

theorem scanFinished_worked (x : HeadId) (own companion : List Raw) (race : SampleRace) (s : State)
    (allowed : (s.head x).state.inMotion = true → P .seek ∧ P .press ∧ P .dwell) :
    Worked P HeadId.all s (scanFinished x own companion race s) := by
  unfold scanFinished
  split
  · exact .refl ..
  · next f rest _ =>
    have ended : Worked P HeadId.all s (endFiring x f rest s) := endFiring_worked ..
    have made : Worked P HeadId.all s (makeSample x f own companion
        ((endFiring x f rest s).head x).contactReached (endFiring x f rest s)).2 :=
      ended.trans (makeSample_worked ..)
    dsimp only
    split
    · exact ended
    · split
      · exact ended.trans (modSense_worked x.mem_all ..)
      · refine made.trans (stepSample_worked (subset_all _) _ race fun motion => allowed ?_)
        simpa only [State.head, head_makeSample, head_endFiring] using motion
      · exact made.trans (forceTest_worked (subset_all _) _)
      · exact made.trans (lateSample_worked (subset_all _) _)

theorem settleTare_worked {h : HeadId} (mine : h ∈ us) (w : Tare) (s : State) : Worked P us s (settleTare h w s) := by
  unfold settleTare
  dsimp only
  split
  · exact (modSense_worked mine ..).trans (raise_worked ..)
  · exact modSense_worked mine ..

end

end Sys2Proof.Machine

/-! ## An operation at every head that leads its unit -/

namespace Sys2Proof.Machine

/-- One head's turn in a round over the heads that lead. -/
def leadTurn (f : HeadId → State → State) (h : HeadId) (t : State) : State := if t.leads h then f h t else t

theorem leads_iff {s : State} {h : HeadId} : s.leads h = true ↔ ((s.head h).gang = true → h.primary = h) := by
  cases g : (s.head h).gang <;> simp [State.leads, State.lead, g]

theorem eachHead_append (f : HeadId → State → State) :
    ∀ (as bs : List HeadId) (s : State), eachHead f (as ++ bs) s = eachHead f bs (eachHead f as s)
  | [], _, _ => rfl
  | a :: as, bs, s => eachHead_append f as bs (f a s)

/-- The turns of heads outside a unit, and of members that have nothing to do, leave the unit's heads alone. -/
theorem turns_leave_unit {P : HeadState → Prop} {f : HeadId → State → State} {s : State} (x : HeadId)
    (aligned : GangsAligned s)
    (own : ∀ t h, GangsAligned t → t.leads h = true → Worked P (t.unit h) t (f h t)) :
    ∀ (hs : List HeadId) (v : State), GangsAligned v → (∀ k, (v.head k).gang = true → (s.head k).gang = true) →
      (∀ h ∈ hs, h ∈ s.unit x → ∀ u : State, u.head h = v.head h → u.leads h = true → f h u = u) →
      Worked P HeadId.all v (eachHead (leadTurn f) hs v) ∧
        ∀ k ∈ s.unit x, sameAt k v (eachHead (leadTurn f) hs v)
  | [], v, _, _, _ => ⟨.refl .., fun k _ => .refl k v⟩
  | h :: hs, v, together, gangs, inert => by
    have turn : Worked P HeadId.all v (leadTurn f h v) ∧ ∀ k ∈ s.unit x, sameAt k v (leadTurn f h v) := by
      unfold leadTurn
      split
      · next leads =>
        by_cases mem : h ∈ s.unit x
        · rw [inert h List.mem_cons_self mem v rfl leads]
          exact ⟨.refl .., fun k _ => .refl k v⟩
        · have w := own v h together leads
          refine ⟨w.mono (fun _ p => p) (subset_all _), fun k hk => w.frame.others k fun shared => mem ?_⟩
          have gangk : (v.head k).gang = true → h ∈ s.unit x := fun g => by
            rw [← unit_of_mem aligned hk]
            have pair : h ∈ v.unit k := by rw [unit_of_mem together shared]; exact mem_unit_self v h
            simpa [mem_unit_iff, g, gangs k g] using pair
          cases g : (v.head h).gang
          · rw [unit_single g] at shared
            obtain rfl := List.mem_singleton.mp shared
            exact hk
          · exact gangk ((gang_of_mem_unit together shared).trans g)
      · exact ⟨.refl .., fun k _ => .refl k v⟩
    obtain ⟨worked, same⟩ := turn
    obtain ⟨worked', same'⟩ := turns_leave_unit x aligned own hs (leadTurn f h v) (worked.walk.aligned together)
      (fun k g => gangs k (worked.frame.gangs k g))
      (fun k hk mem u e => inert k (List.mem_cons_of_mem _ hk) mem u (e.trans (same k mem).1))
    exact ⟨worked.trans worked', fun k mem => (same k mem).trans (same' k mem)⟩

/-- A round over the heads that lead serves each unit once: at some moment of it, with the unit still as it was, the
operation is made at its leader, and nothing touches the unit's heads afterwards. -/
theorem eachLead_at {P : HeadState → Prop} {f : HeadId → State → State} {s : State} {x : HeadId}
    (together : GangsAligned s) (leads : s.leads x = true)
    (own : ∀ t h, GangsAligned t → t.leads h = true → Worked P (t.unit h) t (f h t))
    (served : ∀ t k u, GangsAligned t → t.leads x = true → k ∈ t.unit x → k ≠ x → u.head k = (f x t).head k →
      u.leads k = true → f k u = u) :
    ∃ t, Worked P HeadId.all s t ∧ (∀ k ∈ s.unit x, sameAt k s t) ∧ GangsAligned t ∧
      Worked P HeadId.all (f x t) (eachLead f s) ∧ ∀ k ∈ s.unit x, sameAt k (f x t) (eachLead f s) := by
  obtain ⟨before, after, all⟩ := List.append_of_mem x.mem_all
  have nodup : (before ++ x :: after).Nodup := all ▸ (by decide : HeadId.all.Nodup)
  have notBefore : x ∉ before := fun m => List.disjoint_of_nodup_append nodup m List.mem_cons_self
  have notAfter : x ∉ after := (List.nodup_cons.mp (List.nodup_append.mp nodup).2.1).1
  have follows : ∀ h, h ∈ s.unit x → h ≠ x → ∀ u : State, u.head h = s.head h → u.leads h = true → False := by
    intro h mem other u e ulead
    have g : (u.head h).gang = (s.head x).gang := by rw [e, gang_of_mem_unit together mem]
    rw [mem_unit_iff] at mem
    rw [leads_iff] at leads ulead
    cases gx : (s.head x).gang
    · exact other (by simpa [gx] using mem)
    · obtain ⟨p, _⟩ := HeadId.companion_of_eq_primary (by simpa [gx] using mem)
      exact other ((ulead (g.trans gx)).symm.trans (p.trans (leads gx)))
  obtain ⟨w1, same1⟩ := turns_leave_unit x together own before s together (fun _ g => g)
    (fun h hm mem u e l => (follows h mem (fun eq => notBefore (eq ▸ hm)) u e l).elim)
  let t := eachHead (leadTurn f) before s
  have tg : GangsAligned t := w1.walk.aligned together
  have headx : t.head x = s.head x := (same1 x (mem_unit_self s x)).1
  have tlead : t.leads x = true := by
    rw [leads_iff, headx]
    exact leads_iff.mp leads
  have tunit : t.unit x = s.unit x := unit_congr (congrArg Head.gang headx)
  have w2 := own t x tg tlead
  obtain ⟨w3, same3⟩ := turns_leave_unit (P := P) x tg own after (f x t) (w2.walk.aligned tg)
    (fun k g => w2.frame.gangs k g)
    (fun h hm mem u e l => served t h u tg tlead mem (fun eq => notAfter (eq ▸ hm)) e l)
  have round : eachLead f s = eachHead (leadTurn f) after (f x t) := by
    show eachHead (leadTurn f) HeadId.all s = _
    rw [all, eachHead_append, eachHead, leadTurn, if_pos tlead]
  exact ⟨t, w1, same1, tg, round ▸ w3, fun k mem => round ▸ same3 k (tunit ▸ mem)⟩

end Sys2Proof.Machine

/-! ## What a halt leaves of the unit's heads (R49, R69) -/

namespace Sys2Proof.Machine

/-- Two sequencers that differ at most in the order, what has been handed over for it, and its writing. -/
def Head.sameRam (m n : Head) : Prop :=
  ∃ current handed fixed closing, n = { m with
    current := current, handed := handed, outcomeFixed := fixed, closing := closing }

theorem Head.sameRam.refl (m : Head) : m.sameRam m := ⟨m.current, m.handed, m.outcomeFixed, m.closing, rfl⟩

theorem Head.sameRam.trans {m n p : Head} (a : m.sameRam n) (b : n.sameRam p) : m.sameRam p := by
  obtain ⟨_, _, _, _, rfl⟩ := a
  obtain ⟨c, h, f, g, rfl⟩ := b
  exact ⟨c, h, f, g, rfl⟩

theorem Head.sameRam.haltedFor {m n : Head} (a : m.sameRam n) (why : Reason) :
    (m.haltedFor why).sameRam (n.haltedFor why) := by
  obtain ⟨c, h, f, g, rfl⟩ := a
  exact ⟨c, h, f, g, rfl⟩

/-- Front-ends that differ at most in contact detection. -/
def Sense.sameButContact (m n : Sense) : Prop := ∃ contact, n = { m with contact := contact }

theorem haltPlan_heads (why : Reason) (x : HeadId) (s : State) (k : HeadId) :
    (s.head k).sameRam ((haltPlan why x s).head k) := by
  have own : ∀ r (t : State), (t.head k).sameRam ((modHead x (fun m => { m with handed := r }) t).head k) := by
    intro r t
    by_cases e : k = x
    · subst e
      rw [head_modHead_same]
      exact ⟨_, r, _, _, rfl⟩
    · rw [head_modHead_other e]
      exact .refl _
  unfold haltPlan
  split
  · split
    · exact .refl _
    · exact own _ (setPlan x _ s)
    · exact own _ (setPlan x _ s)
  · exact .refl _
  · exact .refl _

theorem haltPlan_senses (why : Reason) (x : HeadId) (s : State) : (haltPlan why x s).senses = s.senses := by
  unfold haltPlan
  (repeat' split) <;> rfl

theorem beginClosing_senses (x : HeadId) (c : Closing) (s : State) : (beginClosing x c s).senses = s.senses := by
  obtain ⟨stage, b, r, e⟩ := beginClosing_notes x c s
  rw [e]
  rfl

theorem haltOutcome_heads (why : Reason) (x : HeadId) (s : State) (k : HeadId) :
    (s.head k).sameRam ((haltOutcome why x s).head k) := by
  unfold haltOutcome
  dsimp only
  split
  · exact .refl _
  · next o _ =>
    split
    · exact .refl _
    · split
      · obtain ⟨stage, e⟩ := head_beginClosing x (abortedClosing why o (s.head x)) s k
        rw [e]
        split
        · exact ⟨_, _, _, _, rfl⟩
        · exact .refl _
      · split
        · exact .refl _
        · rw [dropCurrent, eachHead_modHead (fun _ m => { m with current := none }) _ _ (unit_nodup s x)]
          split
          · exact ⟨none, _, _, _, rfl⟩
          · exact .refl _

theorem eachModHead_senses (f : HeadId → Head → Head) (hs : List HeadId) (s : State) :
    (eachHead (fun h => modHead h (f h)) hs s).senses = s.senses :=
  eachHead_keeps (P := fun t => t.senses = s.senses) (f := fun h => modHead h (f h)) (fun _ _ same => same) hs s rfl

theorem haltOutcome_senses (why : Reason) (x : HeadId) (s : State) : (haltOutcome why x s).senses = s.senses := by
  unfold haltOutcome
  dsimp only
  split
  · rfl
  · split
    · rfl
    · split
      · exact beginClosing_senses ..
      · split
        · rfl
        · exact eachModHead_senses (fun _ m => { m with current := none }) ..

@[simp] theorem putState_senses (st : HeadState) (h : HeadId) (s : State) :
    (putState st h s).senses = s.senses := by
  obtain ⟨b, r, e⟩ := putState_eq st h s
  rw [e]

@[simp] theorem putHaltReason_senses (why : Reason) (h : HeadId) (s : State) :
    (putHaltReason why h s).senses = s.senses := by
  obtain ⟨b, r, e⟩ := putHaltReason_eq why h s
  rw [e]

theorem haltHead_senses (why : Reason) (h : HeadId) (s : State) :
    (haltHead why h s).senses = s.senses.set h (s.sense h).disarm := by
  simp [haltHead, State.sense]

/-- Each operation of a round changes its own head's front-end by `g`; so the round changes those of the list. -/
theorem sense_eachHead {f : HeadId → State → State} {g : HeadId → Sense → Sense}
    (one : ∀ h s, (f h s).senses = s.senses.set h (g h (s.sense h))) :
    ∀ (hs : List HeadId) (s : State), hs.Nodup → ∀ k,
      (eachHead f hs s).sense k = if k ∈ hs then g k (s.sense k) else s.sense k
  | [], s, _, k => by simp [eachHead]
  | h :: hs, s, nd, k => by
    obtain ⟨fresh, nd⟩ := List.nodup_cons.mp nd
    rw [eachHead, sense_eachHead one hs _ nd k]
    by_cases own : k = h
    · subst own
      simp [fresh, State.sense, one]
    · simp [own, State.sense, one]

/-- The unit as a halt finds it, told to the evaluator. -/
def haltTold (why : Reason) (x : HeadId) (s : State) : State := haltPlan why x (haltContact x s)

theorem haltTold_heads (why : Reason) (x : HeadId) (s : State) (k : HeadId) :
    (s.head k).sameRam ((haltTold why x s).head k) := by
  have := haltPlan_heads why x (haltContact x s) k
  rwa [head_haltContact] at this

theorem haltUnit_eq (why : Reason) (x : HeadId) (s : State) :
    haltUnit why x s =
      haltOutcome why x (raise .halt (eachHead (haltHead why) (s.unit x) (haltTold why x s))) := rfl

/-- Every head of the unit stands as `haltedFor` says, but for what becomes of its order. -/
theorem head_haltUnit (why : Reason) (x : HeadId) (s : State) {k : HeadId} (mine : k ∈ s.unit x) :
    ((s.head k).haltedFor why).sameRam ((haltUnit why x s).head k) := by
  rw [haltUnit_eq]
  refine Head.sameRam.trans ?_ (haltOutcome_heads why x _ k)
  rw [head_raise, head_eachHead_haltHead why _ _ (unit_nodup s x), if_pos mine]
  exact (haltTold_heads why x s k).haltedFor why

theorem haltContact_senses (x : HeadId) (s : State) (k : HeadId) :
    (s.sense k).sameButContact ((haltContact x s).sense k) := by
  unfold haltContact
  split
  · by_cases e : k = x
    · subst e
      exact ⟨_, sense_modSense_same ..⟩
    · rw [sense_modSense_other e]
      exact ⟨(s.sense k).contact, rfl⟩
  · exact ⟨(s.sense k).contact, rfl⟩

theorem sense_haltUnit (why : Reason) (x : HeadId) (s : State) {k : HeadId} (mine : k ∈ s.unit x) :
    (s.sense k).disarm.sameButContact ((haltUnit why x s).sense k) := by
  have told : (haltTold why x s).sense k = (haltContact x s).sense k :=
    congrArg (Four.get · k) (haltPlan_senses why x (haltContact x s))
  obtain ⟨c, e⟩ := haltContact_senses x s k
  have halted : (haltUnit why x s).sense k =
      (eachHead (haltHead why) (s.unit x) (haltTold why x s)).sense k := by
    rw [haltUnit_eq, State.sense, haltOutcome_senses]
    rfl
  rw [halted, sense_eachHead (g := fun _ n => n.disarm) (haltHead_senses why) _ _ (unit_nodup s x), if_pos mine, told, e]
  exact ⟨c, rfl⟩

/-- What a halt raises stays raised. -/
theorem haltUnit_flagged (why : Reason) (x : HeadId) (s : State) : flagged .halt (haltUnit why x s) := by
  rw [haltUnit_eq]
  exact (haltOutcome_worked (P := fun _ => True) (subset_all _) why).frame.flagged (flagged_raise ..)

/-- A head halted: what `haltedBy` says of it. -/
def haltedAt (why : Reason) (k : HeadId) (t : State) : Prop :=
  (t.head k).state = .halted ∧ (t.head k).lastHalt = why ∧ (t.head k).setpoint = 0 ∧
    (t.head k).direction = .none ∧ (t.head k).brake = true ∧ (t.head k).guardArmed = false ∧
    (t.head k).dwell = none ∧ (t.sense k).triggerArmed = false

theorem haltedAt_haltUnit (why : Reason) (x : HeadId) (s : State) {k : HeadId} (mine : k ∈ s.unit x) :
    haltedAt why k (haltUnit why x s) := by
  obtain ⟨_, _, _, _, head⟩ := head_haltUnit why x s mine
  obtain ⟨_, sense⟩ := sense_haltUnit why x s mine
  rw [haltedAt, head, sense]
  exact ⟨rfl, rfl, rfl, rfl, rfl, rfl, rfl, rfl⟩

theorem haltedBy_haltUnit (why : Reason) (x : HeadId) (s : State) : haltedBy why (s.unit x) (haltUnit why x s) :=
  ⟨fun _ mine => haltedAt_haltUnit why x s mine, haltUnit_flagged why x s⟩

theorem haltedAt.of_sameAt {why : Reason} {k : HeadId} {s t : State} (halted : haltedAt why k s)
    (same : sameAt k s t) : haltedAt why k t := by
  simpa only [haltedAt, same.1, same.2.1] using halted

theorem haltedAt.of_ended {why : Reason} {k : HeadId} {u t : State} (halted : haltedAt why k u)
    (e : Ended u t) : haltedAt why k t := by
  simpa only [haltedAt, e.head, e.sense] using halted

theorem haltedBy.of_ended {why : Reason} {us : List HeadId} {u t : State} (halted : haltedBy why us u)
    (e : Ended u t) : haltedBy why us t :=
  ⟨fun k mine => haltedAt.of_ended (halted.1 k mine) e, e.flagged halted.2⟩

/-! ## What the end of an order before its stroke leaves (R57, R58) -/

/-- A head whose order has ended before its stroke. -/
def Head.workEnded (m : Head) : Head :=
  { m with claim := .none, prep := .none, startRead := none, releaseSeen := false, posLost := false }

theorem letGo_heads (x : HeadId) (s : State) :
    (letGo x s).heads = s.heads.set x { s.head x with claim := .none } := by
  unfold letGo
  split
  · next e =>
    have : ({ s.head x with claim := .none } : Head) = s.head x := by rw [← e]
    rw [this]
    exact (Four.set_get s.heads x).symm
  · rfl
  · rfl

theorem eachModSense_heads (f : HeadId → Sense → Sense) (hs : List HeadId) (s : State) :
    (eachHead (fun h => modSense h (f h)) hs s).heads = s.heads :=
  eachHead_keeps (P := fun t => t.heads = s.heads) (f := fun h => modSense h (f h)) (fun _ _ same => same) hs s rfl

theorem head_endWork (x : HeadId) (s : State) (k : HeadId) :
    (endWork x s).head k = if k = x then (s.head k).workEnded else s.head k := by
  unfold endWork
  extract_lets a b c d
  have hb : b.heads = s.heads := eachModSense_heads (fun _ => Sense.abandonTare) ..
  have hc : c.heads = s.heads := by
    unfold c
    split
    · exact hb
    · exact hb
    · exact hb
  have hd : d.heads = s.heads.set x { s.head x with claim := .none } := by
    rw [show d = letGo x c from rfl, letGo_heads, State.head, hc]
    rfl
  simp only [State.head, modHead_heads, hd]
  by_cases e : k = x
  · subst e; simp [Head.workEnded]
  · simp [e]

/-- A closing without results begins with its device fields. -/
theorem beginClosing_bare {c : Closing} (bare : c.stroke = false) (x : HeadId) (s : State) :
    beginClosing x c s = putFields x c (modHead x (fun m => { m with outcomeFixed := true }) s) := by
  simp [beginClosing, bare]

/-- What is written of an order that ends before its stroke. -/
def bareClosing (o : Order) (outcome : OrderOutcome) (reason : Reason) : Closing :=
  { order := o, result := HandOver.bare outcome reason, contactDepth := 0, seatDepth := 0, stroke := false,
    stage := .fields }

/-- The writes of R57 begin for an order whose outcome is open. -/
theorem closeBefore_of_open {x : HeadId} {s : State} {o : Order} (outcome : OrderOutcome) (reason : Reason)
    (order : (s.head x).current = some o) (unfixed : (s.head x).outcomeFixed = false)
    (intact : (s.head x).writeFailed = false) :
    closeBefore outcome reason x s =
      putFields x (bareClosing o outcome reason) (modHead x (fun m => { m with outcomeFixed := true }) s) := by
  simp only [closeBefore, order, unfixed, intact, Bool.or_self, Bool.false_eq_true, if_false]
  exact beginClosing_bare rfl x s

theorem closingBare_closeBefore {x : HeadId} {s : State} {o : Order} (outcome : OrderOutcome) (reason : Reason)
    (order : (s.head x).current = some o) (unfixed : (s.head x).outcomeFixed = false)
    (intact : (s.head x).writeFailed = false) :
    closingBare x o outcome reason (closeBefore outcome reason x s) := by
  rw [closeBefore_of_open outcome reason order unfixed intact]
  refine ⟨?_, ⟨bareClosing o outcome reason, ?_, rfl, rfl, rfl, rfl⟩, writes_requestWrite ..⟩
  · simp [putFields, setClosing, requestWrite, request, State.head]
  · simp [putFields, setClosing, requestWrite, request, State.head]
    rfl

/-- A head's part in the writing stays, and so does the request. -/
theorem closingBare.of_frame {x : HeadId} {o : Order} {outcome : OrderOutcome} {reason : Reason} {us : List HeadId}
    {s t : State} (closing : closingBare x o outcome reason s) (f : Confined us s t)
    (fixed : (t.head x).outcomeFixed = (s.head x).outcomeFixed)
    (noted : (t.head x).closing = (s.head x).closing) : closingBare x o outcome reason t := by
  obtain ⟨hfixed, hclosing, hwrites⟩ := closing
  refine ⟨fixed.trans hfixed, by rw [noted]; exact hclosing, f.writes ?_ hwrites⟩
  simp [Access.lasting, Access.readerRead, Access.ofPrep]

theorem closingBare.of_ended {x : HeadId} {o : Order} {outcome : OrderOutcome} {reason : Reason} {u t : State}
    (closing : closingBare x o outcome reason u) (e : Ended u t) : closingBare x o outcome reason t := by
  obtain ⟨hfixed, hclosing, hwrites⟩ := closing
  refine ⟨by rw [e.head]; exact hfixed, by rw [e.head]; exact hclosing, e.writes (by simp) (by simp) hwrites⟩

theorem head_closeBefore (outcome : OrderOutcome) (reason : Reason) (x : HeadId) (s : State) (k : HeadId) :
    (s.head k).sameRam ((closeBefore outcome reason x s).head k) := by
  unfold closeBefore
  dsimp only
  split
  · exact .refl _
  · split
    · exact .refl _
    · next o _ _ =>
      obtain ⟨stage, e⟩ := head_beginClosing x (bareClosing o outcome reason) s k
      change (s.head k).sameRam ((beginClosing x (bareClosing o outcome reason) s).head k)
      rw [e]
      split
      · exact ⟨_, _, _, _, rfl⟩
      · exact .refl _

/-- After the order has ended the unit is that of before. -/
theorem closeEnded_unit (outcome : OrderOutcome) (reason : Reason) (x : HeadId) (s : State) :
    (closeBefore outcome reason x (endWork x s)).unit x = s.unit x :=
  unit_congr ((head_closeBefore_gang ..).trans (head_endWork_gang ..))

theorem closingBare_ended {x : HeadId} {s : State} {o : Order} (outcome : OrderOutcome) (reason : Reason)
    (order : (s.head x).current = some o) (unfixed : (s.head x).outcomeFixed = false)
    (intact : (s.head x).writeFailed = false) :
    closingBare x o outcome reason (closeBefore outcome reason x (endWork x s)) :=
  closingBare_closeBefore _ _ (by rw [head_endWork, if_pos rfl]; exact order)
    (by rw [head_endWork, if_pos rfl]; exact unfixed) (by rw [head_endWork, if_pos rfl]; exact intact)

/-- The order stopped before its stroke is being written, and its heads are at rest. -/
theorem closingBare_stopBefore {x : HeadId} {s : State} {o : Order} (reason : Reason) {st : HeadId → HeadState}
    (rests : ∀ k, (st k).atRest = true)
    (order : (s.head x).current = some o) (unfixed : (s.head x).outcomeFixed = false)
    (intact : (s.head x).writeFailed = false) : closingBare x o .stopped reason (stopBefore reason st x s) := by
  refine (closingBare_ended .stopped reason order unfixed intact).of_frame
    (goRest_worked (P := fun _ => True) (subset_all _) rests).frame ?_ ?_
  · rw [stopBefore, head_goRest, if_pos (mem_unit_self _ x)]; rfl
  · rw [stopBefore, head_goRest, if_pos (mem_unit_self _ x)]; rfl

theorem state_stopBefore (reason : Reason) (st : HeadId → HeadState) (x : HeadId) (s : State) {k : HeadId}
    (mine : k ∈ s.unit x) : ((stopBefore reason st x s).head k).state = st k := by
  rw [stopBefore, head_goRest, closeEnded_unit, if_pos mine]
  rfl

/-! ## A stop at every head (R58, R174 to R176) -/

theorem stopUnit_of_motion {why : Reason} {x : HeadId} {s : State} (motion : (s.head x).state.inMotion = true) :
    stopUnit why x s = haltUnit why x s := by
  simp [stopUnit, motion]

theorem beforeStroke_still {st : HeadState} (before : st.beforeStroke = true) : st.inMotion = false := by
  revert before
  cases st <;> decide

theorem stopUnit_of_before {why : Reason} {x : HeadId} {s : State} (before : (s.head x).state.beforeStroke = true) :
    stopUnit why x s = stopBefore why (fun _ => .offline) x s := by
  simp [stopUnit, beforeStroke_still before, before]

theorem stopUnit_of_idle {why : Reason} {x : HeadId} {s : State} (idle : (s.head x).state = .idle) :
    stopUnit why x s = goRest (fun _ => .offline) x s := by
  simp [stopUnit, idle, HeadState.inMotion, HeadState.beforeStroke]

theorem stopUnit_of_done {why : Reason} {x : HeadId} {s : State}
    (done : (s.head x).state = .halted ∨ (s.head x).state = .offline) : stopUnit why x s = s := by
  rcases done with e | e <;> simp [stopUnit, e, HeadState.inMotion, HeadState.beforeStroke]

/-- The four kinds of head states that a stop tells apart. -/
theorem HeadState.kinds (st : HeadState) : st.inMotion = true ∨ st.beforeStroke = true ∨ st = .idle ∨
    (st = .halted ∨ st = .offline) := by
  cases st <;> decide

/-- Every head of a stopped unit is HALTED or OFFLINE. -/
theorem stopUnit_done (why : Reason) {x k : HeadId} {s : State} (together : GangsAligned s) (mine : k ∈ s.unit x) :
    ((stopUnit why x s).head k).state = .halted ∨ ((stopUnit why x s).head k).state = .offline := by
  rcases (s.head x).state.kinds with motion | before | idle | done
  · rw [stopUnit_of_motion motion]; exact .inl (haltedAt_haltUnit why x s mine).1
  · rw [stopUnit_of_before before]; exact .inr (state_stopBefore _ _ _ _ mine)
  · rw [stopUnit_of_idle idle, head_goRest, if_pos mine]; exact .inr rfl
  · rw [stopUnit_of_done done, state_of_mem_unit together mine]; exact done

/-- A stop at every unit reaches each as it stands. -/
theorem stopUnits_at (why : Reason) {s : State} {x : HeadId} (together : GangsAligned s) (leads : s.leads x = true) :
    ∃ t, Worked (fun _ => False) HeadId.all s t ∧ (∀ k ∈ s.unit x, sameAt k s t) ∧ GangsAligned t ∧
      Worked (fun _ => False) HeadId.all (stopUnit why x t) (eachLead (stopUnit why) s) ∧
      ∀ k ∈ s.unit x, sameAt k (stopUnit why x t) (eachLead (stopUnit why) s) := by
  refine eachLead_at together leads (fun t h _ _ => stopUnit_worked why (List.Subset.refl _)) ?_
  intro t k u aligned _ mem _ same _
  refine stopUnit_of_done ?_
  rw [same]
  exact stopUnit_done why aligned mem

/-- The leader of a head's unit. -/
theorem leads_lead (s : State) (h : HeadId) : s.leads (s.lead h) = true := by
  rw [leads_iff]
  cases g : (s.head h).gang
  · rw [lead_single g]; intro g'; simp [g] at g'
  · simp [State.lead, g]

theorem mem_unit_lead {s : State} (together : GangsAligned s) (h : HeadId) : h ∈ s.unit (s.lead h) := by
  cases g : (s.head h).gang
  · rw [lead_single g]; exact mem_unit_self s h
  · have : (s.head h.primary).gang = true := (together h g).1
    simp only [State.lead, g, if_true, mem_unit_iff, this, HeadId.primary_primary, HeadId.companion_primary]
    exact h.primary_or_companion

theorem state_lead {s : State} (together : GangsAligned s) (h : HeadId) :
    (s.head (s.lead h)).state = (s.head h).state :=
  (state_of_mem_unit together (mem_unit_lead together h)).symm

end Sys2Proof.Machine

/-! ## A stop at every head: what is left (R50, R58, R68 to R70) -/

namespace Sys2Proof.Machine

/-- The round of a stop and the chain reader's stop after it leave at each unit what `stopUnit` makes of it. -/
theorem carry_at (why : Reason) {s : State} {x : HeadId} (together : GangsAligned s) (leads : s.leads x = true) :
    ∃ t, (∀ k ∈ s.unit x, sameAt k s t) ∧ GangsAligned t ∧ Confined HeadId.all (stopUnit why x t) (carry why s) ∧
      ∀ k ∈ s.unit x, sameAt k (stopUnit why x t) (carry why s) := by
  obtain ⟨t, _, same, aligned, w, after⟩ := stopUnits_at why together leads
  have reader : Worked (fun _ => False) [] (eachLead (stopUnit why) s) (carry why s) := stopReader_worked ..
  exact ⟨t, same, aligned, w.frame.trans (reader.mono (fun _ => id) (subset_all _)).frame,
    fun k mem => (after k mem).trans (reader.frame.others k (by simp))⟩

theorem carry_headsStopped (why : Reason) {s : State} (together : GangsAligned s) :
    headsStopped why s (carry why s) := by
  intro h
  have mem := mem_unit_lead together h
  have kind := state_lead together h
  obtain ⟨t, same, aligned, frame, after⟩ := carry_at why together (leads_lead s h)
  have headx := (same _ (mem_unit_self s (s.lead h))).1
  have unit : t.unit (s.lead h) = s.unit (s.lead h) := unit_congr (congrArg Head.gang headx)
  have own := (after h mem).1
  have statex : (t.head (s.lead h)).state = (s.head h).state := by rw [headx, kind]
  refine ⟨fun motion => ?_, fun halted => ?_, fun still other => ?_⟩
  · rw [stopUnit_of_motion (statex ▸ motion)] at frame after
    refine ⟨fun k hk => ?_, frame.flagged (haltUnit_flagged ..)⟩
    obtain rfl := List.mem_singleton.mp hk
    exact (haltedAt_haltUnit why _ t (unit.symm ▸ mem)).of_sameAt (after k mem)
  · rw [own, stopUnit_of_done (.inl (statex.trans halted)), (same h mem).1]
  · rw [own]
    rcases (s.head h).state.kinds with motion | before | idle | halted | offline
    · rw [still] at motion; cases motion
    · rw [stopUnit_of_before (statex ▸ before)]
      exact state_stopBefore _ _ _ _ (unit.symm ▸ mem)
    · rw [stopUnit_of_idle (statex.trans idle), head_goRest, if_pos (unit.symm ▸ mem)]
      rfl
    · exact absurd halted other
    · rw [stopUnit_of_done (.inr (statex.trans offline)), (same h mem).1, offline]

theorem headsStopped_done {why : Reason} {s t : State} (stopped : headsStopped why s t) (h : HeadId) :
    (t.head h).state = .halted ∨ (t.head h).state = .offline := by
  obtain ⟨moving, halted, other⟩ := stopped h
  by_cases motion : (s.head h).state.inMotion = true
  · exact .inl ((moving motion).1 h List.mem_cons_self).1
  · by_cases was : (s.head h).state = .halted
    · rw [halted was]; exact .inl was
    · exact .inr (other (by simpa using motion) was)

theorem carry_closingBare (why : Reason) {s : State} {x : HeadId} {o : Order} (together : GangsAligned s)
    (waiting : openOrder s x o) : closingBare x o .stopped why (carry why s) := by
  obtain ⟨leads, before, order, unfixed, intact⟩ := waiting
  obtain ⟨t, same, _, frame, after⟩ := carry_at why together leads
  have headx : t.head x = s.head x := (same x (mem_unit_self s x)).1
  have own := (after x (mem_unit_self s x)).1
  rw [stopUnit_of_before (headx.symm ▸ before)] at frame own
  exact (closingBare_stopBefore why (fun _ => rfl) (headx.symm ▸ order) (headx.symm ▸ unfixed)
    (headx.symm ▸ intact)).of_frame frame (by rw [own]) (by rw [own])

theorem headsStopped.of_ended {why : Reason} {s u t : State} (stopped : headsStopped why s u) (e : Ended u t) :
    headsStopped why s t := by
  intro h
  obtain ⟨moving, halted, other⟩ := stopped h
  refine ⟨fun m => (moving m).of_ended e, fun m => ?_, fun a b => ?_⟩
  · rw [e.head]; exact halted m
  · rw [e.head]; exact other a b

/-! ## What every command keeps -/

/-- On the way from `s` to `u` the queue stands and the invariants of the machine are kept. -/
structure Sound (s u : State) : Prop where
  pending : u.pending = s.pending
  claims : ClaimsDisjoint s → ClaimsDisjoint u
  flight : OneInFlight s → OneInFlight u
  rams : RamsStill s → RamsStill u
  press : PressSafe s → PressSafe u

/-- The head states that a safe press may have a head enter, by what the guard and ESTOP show in `s`. -/
def State.admits (s : State) (st : HeadState) : Prop :=
  PressSafe s → (s.guardOpen = true → st.inMotion = false) ∧
    (s.estopActive = true → st.inMotion = false ∧ st.beforeStroke = false)

/-- A settled state is one that any press may enter. -/
theorem settled_safe {st : HeadState} (settled : st = .halted ∨ st.atRest = true) :
    st.inMotion = false ∧ st.beforeStroke = false := by
  cases st <;> simp_all [HeadState.inMotion, HeadState.beforeStroke, HeadState.atRest]

namespace Sound

theorem refl (s : State) : Sound s s := ⟨rfl, id, id, id, id⟩

theorem trans {s t u : State} (a : Sound s t) (b : Sound t u) : Sound s u :=
  ⟨b.pending.trans a.pending, b.claims ∘ a.claims, b.flight ∘ a.flight, b.rams ∘ a.rams, b.press ∘ a.press⟩

/-- Heads change to states that are admitted, the levels of guard and ESTOP stand, and run control's part in ESTOP. -/
theorem of_walk {s u : State} (pending : u.pending = s.pending) (claims : u.claims = s.claims)
    (flight : OneInFlight s → OneInFlight u) (walk : Walk s.admits s u)
    (device : u.control.device = s.control.device) (startEstop : u.control.startEstop = s.control.startEstop)
    (guard : u.guardOpen = s.guardOpen) (estop : u.estopActive = s.estopActive) : Sound s u where
  pending := pending
  claims := by simp only [ClaimsDisjoint, claims]; exact id
  flight := flight
  rams := fun ⟨together, held⟩ => ⟨walk.aligned together, walk.still together held⟩
  press := fun safe => by
    have ⟨together, active, quiet⟩ := safe
    refine ⟨walk.aligned together, ?_, fun k => ?_⟩
    · simp only [EstopHolds, estop, device, startEstop]
      exact active
    · rw [guard, estop]
      rcases walk.moved k with same | halted | rest | admitted
      · rw [same]; exact quiet k
      · exact ⟨fun _ => (settled_safe (.inl halted)).1, fun _ => settled_safe (.inl halted)⟩
      · exact ⟨fun _ => (settled_safe (.inr rest)).1, fun _ => settled_safe (.inr rest)⟩
      · exact admitted safe

/-- What heads, evaluators, front-ends, tools and the chain reader do of their own is sound. -/
theorem of_worked {s u : State} {us : List HeadId} (w : Worked s.admits us s u) : Sound s u :=
  .of_walk w.frame.pending w.frame.claims w.frame.flight w.walk w.frame.device w.frame.startEstop w.frame.guardOpen
    w.frame.estopActive

/-- Heads, claims and the levels of guard and ESTOP stand, and run control answers to ESTOP. -/
theorem of_control {s u : State} (pending : u.pending = s.pending) (heads : u.heads = s.heads)
    (claims : u.claims = s.claims) (flight : OneInFlight s → OneInFlight u)
    (guard : u.guardOpen = s.guardOpen) (estop : u.estopActive = s.estopActive)
    (holds : EstopHolds s → EstopHolds u) : Sound s u where
  pending := pending
  claims := by simp only [ClaimsDisjoint, claims]; exact id
  flight := flight
  rams := by simp only [RamsStill, GangsAligned, StillAtRest, State.head, heads]; exact id
  press := by
    rintro ⟨together, active, quiet⟩
    refine ⟨?_, holds active, ?_⟩
    · simpa only [GangsAligned, State.head, heads] using together
    · simpa only [NoMotionWhenUnsafe, State.head, heads, guard, estop] using quiet

/-- Run control, too, stands. -/
theorem of_same {s u : State} (pending : u.pending = s.pending) (heads : u.heads = s.heads)
    (claims : u.claims = s.claims) (flight : OneInFlight s → OneInFlight u)
    (device : u.control.device = s.control.device) (startEstop : u.control.startEstop = s.control.startEstop)
    (guard : u.guardOpen = s.guardOpen) (estop : u.estopActive = s.estopActive) : Sound s u :=
  .of_control pending heads claims flight guard estop (by
    simp only [EstopHolds, device, startEstop, estop]; exact id)

/-- Run control, the bus and the chain reader may change. -/
theorem of_reader {s u : State} (touched : ReaderTouched s u) (flight : OneInFlight s → OneInFlight u)
    (holds : EstopHolds s → EstopHolds u) : Sound s u := by
  obtain ⟨k, c, b, r, rfl⟩ := touched
  exact .of_control rfl rfl rfl flight rfl rfl holds

end Sound

/-! ### Which states are admitted -/

theorem admits_of_motion {s : State} {x : HeadId} (motion : (s.head x).state.inMotion = true) (st : HeadState) :
    s.admits st := fun ⟨_, _, quiet⟩ =>
  ⟨fun guard => absurd ((quiet x).1 guard) (by simp [motion]),
    fun estop => absurd ((quiet x).2 estop).1 (by simp [motion])⟩

/-- A unit before its stroke may go on to any other state before it, and with the guard closed to the stroke. -/
theorem admits_of_before {s : State} {x : HeadId} (before : (s.head x).state.beforeStroke = true) {st : HeadState}
    (guard : s.guardOpen = true → st.inMotion = false) : s.admits st := fun ⟨_, _, quiet⟩ =>
  ⟨guard, fun estop => absurd ((quiet x).2 estop).2 (by simp [before])⟩

theorem admits_of_released {s : State} (guard : s.guardOpen = false) (estop : s.estopActive = false) (st : HeadState) :
    s.admits st := fun _ => ⟨fun g => by simp [guard] at g, fun e => by simp [estop] at e⟩

/-! ### Completions -/

/-- The first access leaves the bus. -/
theorem freeBus_sound {s : State} {r : BusReq} {rest : List BusReq} (bus : s.bus = r :: rest) :
    Sound s { s with bus := rest } :=
  .of_same rfl rfl rfl (fun one q hq => one q (by rw [bus]; exact List.mem_of_mem_tail hq)) rfl rfl rfl rfl

theorem onComplete_sound (a : Access) {k : State → State} {s : State} (goesOn : ∀ t, Sound t (k t)) :
    Sound s (onComplete a k s) := by
  rcases onComplete_cases a k s with same | ⟨r, rest, bus, _, _, freed | ⟨_, goes⟩⟩
  · rw [same]; exact .refl s
  · rw [freed]; exact freeBus_sound bus
  · rw [goes]; exact (freeBus_sound bus).trans (goesOn _)

/-- What `Worked` shows for every admitted state is sound. -/
theorem Sound.of_all {s u : State} (w : Worked s.admits HeadId.all s u) : Sound s u := .of_worked w

/-! ### Run control -/

theorem setDevice_flight (d : DeviceState) (s : State) : OneInFlight s → OneInFlight (setDevice d s) := by
  intro one
  unfold setDevice
  split
  · exact one
  · exact requestPart_flight .device _ one

/-- A device that enters another state raises RUNST. -/
theorem setDevice_control {d : DeviceState} {s : State} (other : s.control.device ≠ d) :
    (setDevice d s).control = ({ s.control with device := d } : Control).raise .runst := by
  obtain ⟨b, r, e⟩ := requestPart_touches .device (raise .runst (modControl (fun c => { c with device := d }) s))
  unfold setDevice
  rw [if_neg other, e]
  rfl

theorem setDevice_kept (d : DeviceState) (s : State) :
    ∃ g n, (setDevice d s).control = { s.control with device := d, evt := g, msiSent := n } := by
  by_cases same : s.control.device = d
  · exact ⟨s.control.evt, s.control.msiSent, by rw [setDevice, if_pos same, ← same]⟩
  · obtain ⟨n, e⟩ := control_raise { s.control with device := d } .runst
    exact ⟨_, n, by rw [setDevice_control same, e]⟩

theorem setDevice_startEstop (d : DeviceState) (s : State) :
    (setDevice d s).control.startEstop = s.control.startEstop := by
  obtain ⟨_, _, e⟩ := setDevice_kept d s
  rw [e]

theorem setDevice_run (d : DeviceState) (s : State) : (setDevice d s).control.run = s.control.run := by
  obtain ⟨_, _, e⟩ := setDevice_kept d s
  rw [e]

theorem setDevice_estopActive (d : DeviceState) (s : State) : (setDevice d s).estopActive = s.estopActive := by
  obtain ⟨c, b, r, e⟩ := setDevice_touches d s
  rw [e]
  rfl

/-- The device may leave for ESTOP at any time, for any other state while ESTOP does not hold it. -/
theorem setDevice_sound {d : DeviceState} {s : State}
    (answers : EstopHolds s → s.estopActive = true → d = .estop ∨ (d = .starting ∧ s.control.startEstop = true)) :
    Sound s (setDevice d s) :=
  .of_reader (setDevice_touches d s).reader (setDevice_flight d s) (fun holds active => by
    obtain ⟨c, b, r, e⟩ := setDevice_touches d s
    have was : s.estopActive = true := by rw [e] at active; exact active
    rw [setDevice_device, setDevice_startEstop]
    exact answers holds was)

/-- A change of run control that leaves the device state and what ESTOP noted of a start. -/
theorem modControl_sound {f : Control → Control} {s : State} (device : (f s.control).device = s.control.device)
    (startEstop : (f s.control).startEstop = s.control.startEstop) : Sound s (modControl f s) :=
  .of_same rfl rfl rfl id device startEstop rfl rfl

/-- A device that ESTOP would hold is in no state that RUN, an abort or the end of a stop acts in. -/
theorem estop_excludes {s : State} (holds : EstopHolds s) (active : s.estopActive = true)
    (other : s.control.device ≠ .estop) (start : s.control.device ≠ .starting) : False := by
  rcases holds active with e | ⟨e, _⟩
  · exact other e
  · exact start e

theorem leaveArea_device (s : State) : (leaveArea s).control.device = s.control.device := rfl

theorem leaveArea_sound (s : State) : Sound s (leaveArea s) := by
  refine .of_same rfl rfl rfl (fun one => ?_) rfl rfl rfl rfl
  exact dropRequests_flight Access.ofOldArea s one

theorem startNow_sound {s : State} (stopped : s.control.device = .stopped) : Sound s (startNow s) := by
  unfold startNow
  extract_lets base a b
  have quiet : EstopHolds (leaveArea s) → (leaveArea s).estopActive = true → False := fun holds active =>
    estop_excludes holds active (by rw [leaveArea_device, stopped]; decide)
      (by rw [leaveArea_device, stopped]; decide)
  have ha : Sound s a := (leaveArea_sound s).trans (setDevice_sound fun h e => (quiet h e).elim)
  have hb : Sound s b := by
    obtain ⟨c, bus, r, e⟩ := setDevice_touches .starting (leaveArea s)
    refine ⟨ha.pending, ha.claims, ha.flight, ha.rams, fun safe => ?_⟩
    obtain ⟨together, _, still⟩ := ha.press safe
    refine ⟨together, fun active => ?_, still⟩
    have was : (leaveArea s).estopActive = true := by
      have : a.estopActive = true := active
      rw [show a = setDevice .starting (leaveArea s) from rfl, e] at this
      exact this
    exact (quiet ((leaveArea_sound s).press safe).2.1 was).elim
  exact hb.trans (.of_worked (us := []) (request_worked ..))

theorem startIfDue_sound (s : State) : Sound s (startIfDue s) := by
  unfold startIfDue
  split
  · next due =>
    refine startNow_sound ?_
    simp only [State.startDue, Bool.and_eq_true, decide_eq_true_eq] at due
    exact due.1.1.1
  · exact .refl s

theorem estopExit_sound (s : State) : Sound s (estopExit s) := by
  unfold estopExit
  split
  · next out =>
    simp only [Bool.and_eq_true, Bool.not_eq_true', decide_eq_true_eq] at out
    exact setDevice_sound fun _ active => by rw [out.2] at active; cases active
  · exact .refl s

theorem faultExitIfDue_sound (s : State) : Sound s (faultExitIfDue s) := by
  unfold faultExitIfDue
  split
  · next out =>
    simp only [Bool.and_eq_true, Bool.not_eq_true', decide_eq_true_eq] at out
    exact setDevice_sound fun holds active =>
      (estop_excludes holds active (by simp [out.1.1]) (by simp [out.1.1])).elim
  · exact .refl s

theorem stopUnitIdle_worked {P : HeadState → Prop} {us : List HeadId} {x : HeadId} {s : State} (within : s.unit x ⊆ us) :
    Worked P us s (stopUnitIdle x s) := by
  unfold stopUnitIdle
  split
  · exact stopBefore_worked _ (restState_atRest s) within
  · exact .refl ..

theorem sleepHead_worked {P : HeadState → Prop} {us : List HeadId} {x : HeadId} {s : State} (within : s.unit x ⊆ us) :
    Worked P us s (sleepHead x s) := by
  unfold sleepHead
  split
  · exact goRest_worked within fun _ => rfl
  · exact .refl ..

theorem wakeHead_worked {P : HeadState → Prop} {us : List HeadId} {x : HeadId} {s : State} (within : s.unit x ⊆ us) :
    Worked P us s (wakeHead x s) := by
  unfold wakeHead
  split
  · exact goRest_worked within fun _ => rfl
  · exact .refl ..

theorem beginStopping_sound {s : State} (running : s.control.device = .running) : Sound s (beginStopping s) :=
  (setDevice_sound fun holds active =>
    (estop_excludes holds active (by simp [running]) (by simp [running])).elim).trans
  (.of_all ((stopReader_worked ..).trans (eachLead_worked _ fun _ _ => stopUnitIdle_worked (subset_all _))))

theorem writeRun_sound (run : Bool) (s : State) : Sound s (writeRun run s) := by
  unfold writeRun
  dsimp only
  have set : Sound s (modControl (fun c => { c with run := run, staleRun := false }) s) := modControl_sound rfl rfl
  split
  case h_1 => exact set.trans (startIfDue_sound _)
  case h_10 => exact set.trans (modControl_sound rfl rfl)
  case h_11 e =>
    split
    · exact set
    · exact set.trans (beginStopping_sound e)
  case h_12 => exact set.trans (estopExit_sound _)
  case h_13 e =>
    exact set.trans (setDevice_sound fun holds active =>
      (estop_excludes holds active (by rw [e]; decide) (by rw [e]; decide)).elim)
  case h_14 => exact set.trans (faultExitIfDue_sound _)
  all_goals exact set

theorem carry_sound (why : Reason) (s : State) : Sound s (carry why s) := .of_all (carry_worked ..)

theorem abortNow_sound (s : State) : Sound s (abortNow s) :=
  (modControl_sound (by exact rfl) (by exact rfl)).trans (carry_sound ..)

theorem enterStopped_sound {s : State} (due : s.stopDone = true) : Sound s (enterStopped s) := by
  have out : s.control.device ≠ .estop ∧ s.control.device ≠ .starting := by
    simp only [State.stopDone, Bool.and_eq_true, Bool.or_eq_true, decide_eq_true_eq] at due
    rcases due.1.1 with e | e
    · simp [e]
    · simp [e.1]
  unfold enterStopped
  refine (Sound.trans ?_ (.of_all (.eachHead _ _ fun _ _ _ => sleepHead_worked (subset_all _)))).trans
    (startIfDue_sound _)
  exact (modControl_sound (by exact rfl) (by exact rfl)).trans
    (setDevice_sound fun holds active => (estop_excludes holds active out.1 out.2).elim)

end Sys2Proof.Machine

/-! ### The start -/

namespace Sys2Proof.Machine

theorem abandonStart_touches (s : State) : ControlTouched s (abandonStart s) := by
  have exit : ∀ t, ControlTouched t (estopExit t) := fun t => by
    unfold estopExit
    split
    · exact setDevice_touches ..
    · exact .rfl
  unfold abandonStart
  dsimp only
  split
  · exact ((modControl_touches _ s).trans (setDevice_touches ..)).trans (exit _)
  · exact (modControl_touches _ s).trans (setDevice_touches ..)

theorem estopExit_flight (s : State) : OneInFlight s → OneInFlight (estopExit s) := by
  intro one
  unfold estopExit
  split
  · exact setDevice_flight _ _ one
  · exact one

theorem abandonStart_flight (s : State) : OneInFlight s → OneInFlight (abandonStart s) := by
  intro one
  unfold abandonStart
  dsimp only
  split
  · exact estopExit_flight _ (setDevice_flight .estop _ one)
  · exact setDevice_flight .stopped _ one

/-- The device state after a start has been given up. -/
theorem abandonStart_device (s : State) : (abandonStart s).control.device =
    if s.control.startEstop = true ∧ ¬(s.control.run = false ∧ s.estopActive = false) then .estop else .stopped := by
  unfold abandonStart
  extract_lets estop a
  cases e : s.control.startEstop
  · simp [estop, e]
  · have run : (setDevice .estop a).control.run = s.control.run := setDevice_run ..
    have level : (setDevice .estop a).estopActive = s.estopActive := setDevice_estopActive ..
    simp only [estop, e, if_true, estopExit, setDevice_device, run, level]
    cases s.control.run <;> cases s.estopActive <;> simp

/-- A start given up leads to ESTOP where ESTOP holds. -/
theorem abandonStart_sound {s : State} (starting : s.control.device = .starting) : Sound s (abandonStart s) := by
  refine .of_reader (abandonStart_touches s).reader (abandonStart_flight s) fun holds active => ?_
  have was : s.estopActive = true := by
    obtain ⟨c, b, r, e⟩ := abandonStart_touches s
    rw [e] at active
    exact active
  have noted : s.control.startEstop = true := by
    rcases holds was with e | ⟨_, e⟩
    · rw [starting] at e; cases e
    · exact e
  exact .inl (by rw [abandonStart_device]; simp [noted, was])

theorem startLost_of_active {s : State} (holds : EstopHolds s) (starting : s.control.device = .starting)
    (active : s.estopActive = true) : s.startLost = true := by
  rcases holds active with e | ⟨_, e⟩
  · rw [starting] at e; cases e
  · simp [State.startLost, e]

theorem readerStart_flight (c : Setup) (s : State) : OneInFlight s → OneInFlight (readerStart c s) :=
  dropRequests_flight (fun a => a.readerRead || a.readerWrite) s

theorem adoptSetup_sound (c : Setup) (s : State) : Sound s (adoptSetup c s) := by
  unfold adoptSetup
  extract_lets a b d
  have ha : Sound s a := modControl_sound rfl rfl
  have hb : Sound a b := .of_same rfl rfl rfl (readerStart_flight c a) rfl rfl rfl rfl
  have hd : Sound b d := .of_same rfl rfl rfl id rfl rfl rfl rfl
  exact ((ha.trans hb).trans hd).trans (.of_all (requestWrite_worked ..))

theorem setupFound_sound (data : Option (List Byte)) (s : State) : Sound s (setupFound data s) := by
  unfold setupFound
  split
  · exact .refl s
  · next starting =>
    have starting : s.control.device = .starting := not_not.mp starting
    split
    · exact abandonStart_sound starting
    · next going =>
      split
      · refine (modControl_sound (by exact rfl) (by exact rfl)).trans (setDevice_sound fun holds active => ?_)
        exact absurd (startLost_of_active (s := modControl _ s) holds starting active) going
      · exact adoptSetup_sound ..

theorem lookPresent_sound (h : HeadId) (s : State) : Sound s (lookPresent h s) := by
  unfold lookPresent
  split
  · dsimp only
    split
    · exact (Sound.of_all (changeTool_worked h.mem_all ..)).trans (.of_same rfl rfl rfl id rfl rfl rfl rfl)
    · exact .of_all (changeTool_worked h.mem_all ..)
  · exact .of_all (changeTool_worked h.mem_all ..)

theorem Sound.eachHead {f : HeadId → State → State} (each : ∀ h t, Sound t (f h t)) :
    ∀ (hs : List HeadId) (s : State), Sound s (Machine.eachHead f hs s)
  | [], s => .refl s
  | h :: hs, s => (each h s).trans (Sound.eachHead each hs _)

theorem enterRunning_sound {s : State} (starting : s.control.device = .starting) (going : s.startLost ≠ true) :
    Sound s (enterRunning s) := by
  unfold enterRunning
  refine Sound.trans ?_ (.of_all (.eachHead _ _ fun _ _ _ => wakeHead_worked (subset_all _)))
  refine Sound.trans ?_ (.of_all (readerRun_worked ..))
  refine Sound.trans (setDevice_sound fun holds active => ?_) (.eachHead lookPresent_sound _ _)
  exact absurd (startLost_of_active holds starting active) going

theorem startHeaderWritten_sound (s : State) : Sound s (startHeaderWritten s) := by
  unfold startHeaderWritten
  split
  · exact .refl s
  · next starting =>
    split
    · exact abandonStart_sound (not_not.mp starting)
    · next going => exact enterRunning_sound (not_not.mp starting) going

/-! ### Device fault and ESTOP -/

/-- What `Sound` says but for run control's answer to ESTOP. -/
structure Calm (s u : State) : Prop where
  pending : u.pending = s.pending
  claims : ClaimsDisjoint s → ClaimsDisjoint u
  flight : OneInFlight s → OneInFlight u
  rams : RamsStill s → RamsStill u
  aligned : GangsAligned s → GangsAligned u
  quiet : NoMotionWhenUnsafe s → NoMotionWhenUnsafe u

theorem Calm.trans {s t u : State} (a : Calm s t) (b : Calm t u) : Calm s u :=
  ⟨b.pending.trans a.pending, b.claims ∘ a.claims, b.flight ∘ a.flight, b.rams ∘ a.rams, b.aligned ∘ a.aligned,
    b.quiet ∘ a.quiet⟩

/-- Run control, the bus and the chain reader may change. -/
theorem Calm.of_reader {s u : State} (touched : ReaderTouched s u) (flight : OneInFlight s → OneInFlight u) :
    Calm s u := by
  obtain ⟨k, c, b, r, rfl⟩ := touched
  exact ⟨rfl, id, flight, id, id, id⟩

theorem Calm.of_worked {s u : State} {us : List HeadId} (w : Worked (fun _ => False) us s u) : Calm s u where
  pending := w.frame.pending
  claims := by simp only [ClaimsDisjoint, w.frame.claims]; exact id
  flight := w.frame.flight
  rams := fun ⟨together, held⟩ => ⟨w.walk.aligned together, w.walk.still together held⟩
  aligned := w.walk.aligned
  quiet := fun quiet k => by
    rw [w.frame.guardOpen, w.frame.estopActive]
    rcases w.walk.moved k with same | halted | rest | none
    · rw [same]; exact quiet k
    · exact ⟨fun _ => (settled_safe (.inl halted)).1, fun _ => settled_safe (.inl halted)⟩
    · exact ⟨fun _ => (settled_safe (.inr rest)).1, fun _ => settled_safe (.inr rest)⟩
    · exact none.elim

theorem Calm.sound {s u : State} (calm : Calm s u) (holds : EstopHolds s → EstopHolds u) : Sound s u :=
  ⟨calm.pending, calm.claims, calm.flight, calm.rams, fun ⟨together, estop, quiet⟩ =>
    ⟨calm.aligned together, holds estop, calm.quiet quiet⟩⟩

/-- A start's accesses are given up at a device fault, and the device is in FAULT. -/
def faultEntered (s : State) : State :=
  setDevice .fault (modControl (fun c => { c with aborting := false }) (dropRequests Access.ofStart s))

theorem faultEntered_touches (s : State) : ControlTouched s (faultEntered s) :=
  ((dropRequests_touches Access.ofStart s).control.trans (modControl_touches _ _)).trans (setDevice_touches ..)

theorem faultEntered_flight (s : State) : OneInFlight s → OneInFlight (faultEntered s) := fun one =>
  setDevice_flight .fault _ (dropRequests_flight Access.ofStart s one)

theorem faultEntered_startEstop (s : State) : (faultEntered s).control.startEstop = s.control.startEstop := by
  rw [faultEntered, setDevice_startEstop]
  rfl

theorem deviceFault_of_out {s : State} (out : s.control.device = .fault ∨ s.control.device = .estop) :
    deviceFault s = s := by
  rcases out with e | e <;> simp [deviceFault, e]

/-- The end of a device fault: a start that ESTOP noted is given up. -/
def faultLeft (s : State) : State :=
  if s.control.startEstop then abandonStart s else modControl (fun c => { c with startGivenUp := false }) s

theorem deviceFault_of_in {s : State} (fault : s.control.device ≠ .fault) (estop : s.control.device ≠ .estop) :
    deviceFault s = faultLeft (carry .fault (faultEntered s)) := by
  cases e : s.control.device
  case fault => exact absurd e fault
  case estop => exact absurd e estop
  all_goals
    unfold deviceFault
    rw [e]
    rfl

theorem deviceFault_sound (s : State) : Sound s (deviceFault s) := by
  by_cases fault : s.control.device = .fault
  · rw [deviceFault_of_out (.inl fault)]; exact .refl s
  by_cases estop : s.control.device = .estop
  · rw [deviceFault_of_out (.inr estop)]; exact .refl s
  have carried : Calm s (carry .fault (faultEntered s)) :=
    (Calm.of_reader (faultEntered_touches s).reader (faultEntered_flight s)).trans (.of_worked (carry_worked ..))
  have frame := (carry_worked (P := fun _ => True) .fault (faultEntered s)).frame
  have level : (carry .fault (faultEntered s)).estopActive = s.estopActive := by
    rw [frame.estopActive]
    obtain ⟨c, b, r, e⟩ := faultEntered_touches s
    rw [e]
    rfl
  have same : (carry .fault (faultEntered s)).control.startEstop = s.control.startEstop :=
    frame.startEstop.trans (faultEntered_startEstop s)
  rw [deviceFault_of_in fault estop]
  generalize carry .fault (faultEntered s) = c at carried level same ⊢
  unfold faultLeft
  split
  · next noted =>
    refine (carried.trans (.of_reader (abandonStart_touches _).reader (abandonStart_flight _))).sound
      fun _ active => .inl ?_
    have was : s.estopActive = true := by
      obtain ⟨k, b, r, e⟩ := abandonStart_touches c
      rw [e] at active
      exact level.symm.trans active
    rw [abandonStart_device, level]
    simp [noted, was]
  · next noted =>
    refine (carried.trans (.of_reader (modControl_touches _ _).reader id)).sound fun holds active => ?_
    rcases holds (level.symm.trans active) with e | ⟨_, e⟩
    · exact absurd e estop
    · exact absurd (same.trans e) noted

theorem failOrder_sound (h : HeadId) {s : State} : Sound s (failOrder h s) := by
  unfold failOrder
  exact .trans (.of_reader (dropRequests_touches ..).control.reader (dropRequests_flight _ s) id)
    (.of_all (modHead_worked h.mem_all ⟨rfl, rfl, .inl⟩))

theorem writeLost_sound (r : BusReq) (s : State) : Sound s (writeLost r s) := by
  have failed : ∀ h, Sound s (failOrder h s) := failOrder_sound (s := s)
  unfold writeLost
  split
  · exact .of_same rfl rfl rfl id rfl rfl rfl rfl
  · split
    · exact .of_all (modReader_worked ..)
    · exact .refl s
  · split
    · exact .of_all (modReader_worked ..)
    · exact .refl s
  · split
    · split
      · exact .of_all (changeReader_worked ..)
      · exact .of_all (changeReader_worked ..)
      · exact .refl s
    · exact .refl s
  · exact failed _
  · exact failed _
  · exact failed _
  all_goals exact .refl s

/-! ### ESTOP and GUARD become active -/

/-- Run control's part of ESTOP, once heads and reader are stopped. -/
def estopNoted (s : State) : State :=
  match s.control.device with
  | .starting => modControl (fun c => { c with startEstop := true }) s
  | .estop => s
  | .stopped | .running | .stopping | .setupErr | .fault =>
    setDevice .estop (modControl (fun c => { c with aborting := false }) s)

theorem estopNoted_touches (s : State) : ControlTouched s (estopNoted s) := by
  unfold estopNoted
  split
  · exact modControl_touches ..
  · exact .rfl
  all_goals exact (modControl_touches _ _).trans (setDevice_touches ..)

theorem estopNoted_flight (s : State) : OneInFlight s → OneInFlight (estopNoted s) := by
  unfold estopNoted
  split
  · exact id
  · exact id
  all_goals exact setDevice_flight .estop (modControl _ s)

theorem estopNoted_device (s : State) : (estopNoted s).control.device = .estop ∨
    ((estopNoted s).control.device = .starting ∧ (estopNoted s).control.startEstop = true) := by
  unfold estopNoted
  split
  · next e => exact .inr ⟨e, rfl⟩
  · next e => exact .inl e
  all_goals exact .inl (setDevice_device ..)

theorem enterEstop_calm (s : State) : Calm s (enterEstop s) :=
  (Calm.of_worked (carry_worked ..)).trans (.of_reader (estopNoted_touches _).reader (estopNoted_flight _))

theorem enterEstop_device (s : State) : (enterEstop s).control.device = .estop ∨
    ((enterEstop s).control.device = .starting ∧ (enterEstop s).control.startEstop = true) :=
  estopNoted_device _

/-- Beyond the stop of heads and reader, ESTOP touches run control and the bus. -/
theorem enterEstop_touches (s : State) : ControlTouched (carry .estop s) (enterEstop s) := estopNoted_touches _

theorem enterEstop_heads (s : State) : (enterEstop s).heads = (carry .estop s).heads := by
  obtain ⟨c, b, r, e⟩ := enterEstop_touches s
  rw [e]

theorem headsStopped_quiet {why : Reason} {s t : State} (stopped : headsStopped why s t) : NoMotionWhenUnsafe t := by
  intro h
  have safe : (t.head h).state.inMotion = false ∧ (t.head h).state.beforeStroke = false :=
    settled_safe ((headsStopped_done stopped h).imp_right fun e => by rw [e]; rfl)
  exact ⟨fun _ => safe.1, fun _ => safe⟩

theorem estopAssert_sound (s : State) : Sound s (handOnEstop (setEstop true s)) := by
  have calm : Calm (raise .safe (setEstop true s)) (handOnEstop (setEstop true s)) := enterEstop_calm _
  refine ⟨calm.pending, calm.claims, calm.flight, calm.rams, fun ⟨together, _, _⟩ => ?_⟩
  refine ⟨calm.aligned together, fun _ => enterEstop_device _, ?_⟩
  have stopped := carry_headsStopped .estop (s := raise .safe (setEstop true s)) together
  have quiet := headsStopped_quiet stopped
  intro h
  have done := headsStopped_done stopped h
  have same : (handOnEstop (setEstop true s)).head h = (carry .estop (raise .safe (setEstop true s))).head h :=
    congrArg (Four.get · h) (enterEstop_heads _)
  rw [same]
  have safe := settled_safe (done.imp_right fun e => by rw [e]; rfl)
  exact ⟨fun _ => safe.1, fun _ => safe⟩

theorem haltIn_motion_done (why : Reason) {x k : HeadId} {s : State} (together : GangsAligned s) (mine : k ∈ s.unit x) :
    ((haltIn HeadState.inMotion why x s).head k).state.inMotion = false := by
  unfold haltIn
  split
  · rw [(haltedAt_haltUnit why x s mine).1]; rfl
  · next still => rw [state_of_mem_unit together mine]; simpa using still

/-- A halt cause that halts every motion state halts the heads in motion and leaves the others. -/
theorem haltMoving_at (why : Reason) {s : State} (together : GangsAligned s) (h : HeadId) :
    ((s.head h).state.inMotion = true → haltedAt why h (eachLead (haltIn HeadState.inMotion why) s) ∧
      flagged .halt (eachLead (haltIn HeadState.inMotion why) s)) ∧
    ((s.head h).state.inMotion = false → sameAt h s (eachLead (haltIn HeadState.inMotion why) s)) := by
  have mem := mem_unit_lead together h
  obtain ⟨t, _, same, aligned, w, after⟩ := eachLead_at (P := fun _ => False) (f := haltIn HeadState.inMotion why)
    together (leads_lead s h) (fun t h _ _ => haltIn_worked (List.Subset.refl _) _ why) (by
      intro t k u aligned _ mem _ same _
      have still := haltIn_motion_done why aligned mem
      rw [← same] at still
      simp [haltIn, still])
  have headx := (same _ (mem_unit_self s (s.lead h))).1
  have unit : t.unit (s.lead h) = s.unit (s.lead h) := unit_congr (congrArg Head.gang headx)
  have statex : (t.head (s.lead h)).state = (s.head h).state := by rw [headx, state_lead together h]
  constructor
  · intro motion
    have halts : haltIn HeadState.inMotion why (s.lead h) t = haltUnit why (s.lead h) t := by
      simp [haltIn, statex, motion]
    rw [halts] at w after
    exact ⟨(haltedAt_haltUnit why _ t (unit.symm ▸ mem)).of_sameAt (after h mem),
      w.frame.flagged (haltUnit_flagged ..)⟩
  · intro still
    have stays : haltIn HeadState.inMotion why (s.lead h) t = t := by simp [haltIn, statex, still]
    rw [stays] at after
    exact (same h mem).trans (after h mem)

theorem guardOpen_sound (s : State) :
    Sound s (eachLead (haltIn HeadState.inMotion .guard) (raise .safe (setGuard true s))) := by
  have w : Worked (fun _ => False) HeadId.all (raise .safe (setGuard true s))
      (eachLead (haltIn HeadState.inMotion .guard) (raise .safe (setGuard true s))) :=
    eachLead_worked _ fun _ _ => haltIn_worked (subset_all _) _ _
  have calm := Calm.of_worked w
  refine ⟨calm.pending, calm.claims, calm.flight, calm.rams, fun ⟨together, estop, quiet⟩ => ?_⟩
  have raised : (raise .safe (setGuard true s)).control.device = s.control.device ∧
      (raise .safe (setGuard true s)).control.startEstop = s.control.startEstop := by
    obtain ⟨n, e⟩ := control_raise (setGuard true s).control .safe
    rw [raise_control, e]
    exact ⟨rfl, rfl⟩
  refine ⟨calm.aligned together, ?_, fun h => ?_⟩
  · simp only [EstopHolds, w.frame.estopActive, w.frame.device, w.frame.startEstop, raised]
    exact estop
  · have still : (((eachLead (haltIn HeadState.inMotion .guard) (raise .safe (setGuard true s))).head h).state).inMotion
        = false := by
      obtain ⟨moving, other⟩ := haltMoving_at .guard (s := raise .safe (setGuard true s)) together h
      cases motion : ((raise .safe (setGuard true s)).head h).state.inMotion
      · rw [(other motion).1]; exact motion
      · rw [(moving motion).1.1]; rfl
    refine ⟨fun _ => still, fun active => ⟨still, ?_⟩⟩
    rw [w.frame.estopActive] at active
    rcases w.walk.moved h with same | halted | rest | none
    · rw [same]; exact ((quiet h).2 active).2
    · exact (settled_safe (.inl halted)).2
    · exact (settled_safe (.inr rest)).2
    · exact none.elim

end Sys2Proof.Machine

/-! ### Taking an order -/

namespace Sys2Proof.Machine

/-- What an order that a head may take is, and how its heads stand (R51). -/
theorem takeable_some {s : State} {x : HeadId} {o : Order} (can : s.takeable x = some o) :
    s.control.device = .running ∧ o.head = x ∧ (o.ganged = true → x = x.primary) ∧
      ∀ k ∈ o.heads, (s.head k).state = .idle := by
  unfold State.takeable at can
  split at can
  · next ready =>
    simp only [State.running, Bool.and_eq_true, decide_eq_true_eq] at ready
    obtain ⟨⟨device, _⟩, idle⟩ := ready
    split at can
    · cases can
    · split at can
      · next named =>
        obtain ⟨mine, gang⟩ := named
        cases can
        refine ⟨device, mine, fun g => by simpa [HeadId.even] using (gang g).1, fun k hk => ?_⟩
        unfold Order.heads at hk
        split at hk
        · next g =>
          rcases List.mem_cons.mp hk with e | e
          · rw [e, mine]; exact idle
          · rw [List.mem_singleton.mp e, mine]; exact (gang g).2.1
        · rw [List.mem_singleton.mp hk, mine]; exact idle
      · cases can
  · cases can

/-- The heads of an order that takes its head's place as primary are the unit of that head once it has taken it. -/
theorem Order.heads_eq {o : Order} {x : HeadId} (mine : o.head = x) (even : o.ganged = true → x = x.primary) :
    o.heads = if o.ganged then [x.primary, x.companion] else [x] := by
  unfold Order.heads
  split
  · next g => rw [mine, ← even g]
  · rw [mine]

theorem Order.mem_heads_head (o : Order) : o.head ∈ o.heads := by
  unfold Order.heads
  split <;> exact List.mem_cons_self

theorem Order.heads_nodup (o : Order) (even : o.ganged = true → o.head = o.head.primary) : o.heads.Nodup := by
  rw [Order.heads_eq rfl even]
  split
  · simpa using (HeadId.companion_ne_primary o.head).symm
  · simp

/-- The order at its heads, before they enter PREPARE. -/
def takenAt (x : HeadId) (o : Order) (s : State) : State :=
  modHead x (fun m => { m with prep := .active })
    (eachHead (fun h => modHead h (Head.take o)) o.heads (modReader (Reader.markWithHead o.age) s))

theorem takeUp_eq (x : HeadId) (o : Order) (s : State) : takeUp x o s =
    requestWrite (.activeWrite x) (statusOffset o.record) [statusActive] (enterState .prepare x (takenAt x o s)) := by
  rfl

theorem takenAt_parts (x : HeadId) (o : Order) (s : State) :
    ∃ m, takenAt x o s = { s with heads := m, reader := s.reader.markWithHead o.age } := by
  obtain ⟨m, e⟩ : ∃ m, eachHead (fun h => modHead h (Head.take o)) o.heads
      (modReader (Reader.markWithHead o.age) s) = { s with heads := m, reader := s.reader.markWithHead o.age } :=
    eachHead_keeps (P := fun u => ∃ m, u = { s with heads := m, reader := s.reader.markWithHead o.age })
      (by rintro h u ⟨m, rfl⟩; exact ⟨_, rfl⟩) _ _ ⟨s.heads, rfl⟩
  exact ⟨_, by rw [takenAt, e]; rfl⟩

theorem head_takenAt {x : HeadId} {o : Order} (mine : o.head = x) (even : o.ganged = true → x = x.primary) (s : State)
    (k : HeadId) : (takenAt x o s).head k =
      if k ∈ o.heads then { (s.head k).take o with prep := if k = x then .active else .none } else s.head k := by
  have each := eachHead_modHead (fun _ => Head.take o) o.heads (modReader (Reader.markWithHead o.age) s)
    (o.heads_nodup (mine ▸ even)) k
  by_cases own : k = x
  · subst own
    rw [takenAt, head_modHead_same, each, if_pos (mine ▸ o.mem_heads_head), if_pos (mine ▸ o.mem_heads_head),
      if_pos rfl]
    rfl
  · rw [takenAt, head_modHead_other own, each]
    split
    · simp [Head.take]
    · rfl

/-- The unit that has taken an order stands in PREPARE with it. -/
theorem head_takeUp {x : HeadId} {o : Order} (mine : o.head = x) (even : o.ganged = true → x = x.primary) (s : State)
    (k : HeadId) : (takeUp x o s).head k =
      if k ∈ o.heads then
        ({ (s.head k).take o with prep := if k = x then .active else .none, state := .prepare } : Head).drive Drive.still
      else s.head k := by
  have taken := head_takenAt mine even s
  have gang : ((takenAt x o s).head x).gang = o.ganged := by
    rw [taken, if_pos (mine ▸ o.mem_heads_head)]
    rfl
  have unit : (takenAt x o s).unit x = o.heads := by rw [State.unit, gang, Order.heads_eq mine even]
  rw [takeUp_eq]
  show (enterState .prepare x (takenAt x o s)).head k = _
  rw [head_enterState, unit, driveOf_still rfl]
  split
  · next hk => rw [taken, if_pos hk]
  · next hk => rw [taken, if_neg hk]

theorem takeUp_walk {s : State} {x : HeadId} {o : Order} (can : s.takeable x = some o) {P : HeadState → Prop}
    (allowed : P .prepare) : Walk P s (takeUp x o s) := by
  obtain ⟨_, mine, even, idle⟩ := takeable_some can
  have heads := head_takeUp mine even s
  have pair : ∀ h, h ∈ o.heads → o.ganged = true → h.primary ∈ o.heads ∧ h.companion ∈ o.heads := by
    intro h hh g
    rw [Order.heads_eq mine even, if_pos g] at hh ⊢
    obtain ⟨p, c⟩ := HeadId.companion_of_eq_primary (x := x) (k := h) (by simpa using hh)
    simp [p, c]
  refine ⟨fun together h gang => ?_, fun together held k out => ?_, fun k => ?_⟩
  · by_cases hh : h ∈ o.heads
    · rw [heads, if_pos hh] at gang
      obtain ⟨hp, hc⟩ := pair h hh gang
      rw [heads h.primary, heads h.companion, heads h, if_pos hp, if_pos hc, if_pos hh]
      exact ⟨gang, gang, rfl, rfl⟩
    · rw [heads, if_neg hh] at gang
      obtain ⟨p, c, same, working⟩ := together h gang
      have stays : ∀ k, (s.head k).state = (s.head h).state → k ∉ o.heads := fun k e hk => by
        rw [← e, idle k hk] at working
        cases working
      have states : (s.head h.primary).state = (s.head h).state ∧ (s.head h.companion).state = (s.head h).state := by
        rcases h.primary_or_companion with e | e
        · exact ⟨by rw [← e], by rw [← same, ← e]⟩
        · exact ⟨by rw [same, ← e], by rw [← e]⟩
      rw [heads h.primary, heads h.companion, heads h, if_neg (stays _ states.1), if_neg (stays _ states.2), if_neg hh]
      exact ⟨p, c, same, working⟩
  · rw [heads] at out ⊢
    by_cases hk : k ∈ o.heads
    · rw [if_pos hk]; exact ⟨rfl, rfl, rfl⟩
    · rw [if_neg hk] at out ⊢; exact held k out
  · rw [heads]
    split
    · exact .inr (.inr (.inr allowed))
    · exact .inl rfl

theorem takeUp_frame (x : HeadId) (o : Order) (s : State) : Confined HeadId.all (takenAt x o s) (takeUp x o s) :=
  (Worked.trans (P := fun _ => True) (enterState_worked (subset_all _) rfl (.inr trivial)) (requestWrite_worked ..)).frame

theorem takeUp_sound {s : State} {x : HeadId} {o : Order} (can : s.takeable x = some o) : Sound s (takeUp x o s) := by
  have frame := takeUp_frame x o s
  have allowed : s.admits .prepare := fun ⟨_, estop, _⟩ => ⟨fun _ => rfl, fun active =>
    (estop_excludes estop active (by simp [(takeable_some can).1]) (by simp [(takeable_some can).1])).elim⟩
  have walk := takeUp_walk can allowed
  obtain ⟨m, e⟩ := takenAt_parts x o s
  have flight := frame.flight
  rw [e] at frame flight
  exact .of_walk frame.pending frame.claims flight walk frame.device frame.startEstop frame.guardOpen frame.estopActive

end Sys2Proof.Machine

/-! ### The zone arbiter -/

namespace Sys2Proof.Machine

/-- An entry that changes to one that is not HELD leaves the claims disjoint. -/
theorem claimsDisjoint_set {s : State} {h : HeadId} {c : Claim} (unheld : ∀ l u, c ≠ .held l u)
    (disjoint : ClaimsDisjoint s) : ClaimsDisjoint { s with claims := s.claims.set h c } := by
  intro a b l1 u1 l2 u2 apart ha hb
  rw [Four.get_set] at ha hb
  split at ha
  · exact absurd ha (unheld _ _)
  split at hb
  · exact absurd hb (unheld _ _)
  · exact disjoint a b l1 u1 l2 u2 apart ha hb

/-- A grant of an interval that is free leaves the claims disjoint (R116). -/
theorem claimsDisjoint_grant {s : State} {w : Waiter} (fits : free s.claims w.low w.high = true)
    (disjoint : ClaimsDisjoint s) : ClaimsDisjoint (grantClaim w s) := by
  have clear := (free_iff ..).mp fits
  intro a b l1 u1 l2 u2 apart ha hb
  rw [grantClaim_eq, Four.get_set] at ha hb
  split at ha
  · next ea =>
    rw [if_neg (fun e => apart (ea.trans e.symm))] at hb
    cases ha
    exact clear b _ _ hb
  · split at hb
    · cases hb
      rw [overlap_comm]
      exact clear a _ _ ha
    · exact disjoint a b l1 u1 l2 u2 apart ha hb

theorem claimsDisjoint_passOver : ∀ (ws : List Waiter) {s : State}, ClaimsDisjoint s → ClaimsDisjoint (passOver ws s)
  | [], _, disjoint => disjoint
  | w :: ws, s, disjoint => by
    rw [passOver]
    refine claimsDisjoint_passOver ws ?_
    split
    · next fits => exact claimsDisjoint_grant fits disjoint
    · exact disjoint

theorem claimsDisjoint_release (h : HeadId) {s : State} (disjoint : ClaimsDisjoint s) :
    ClaimsDisjoint (arbiterRelease h s) :=
  claimsDisjoint_passOver _ (claimsDisjoint_set (by simp) disjoint)

/-- A change of the claim table and the grants that keeps HELD claims disjoint. -/
theorem Sound.of_board {s u : State} (parts : ∃ c g, u = { s with claims := c, grants := g })
    (claims : ClaimsDisjoint s → ClaimsDisjoint u) : Sound s u := by
  obtain ⟨c, g, rfl⟩ := parts
  exact ⟨rfl, claims, id, id, id⟩

theorem arbiterRelease_sound (h : HeadId) (s : State) : Sound s (arbiterRelease h s) :=
  .of_board (arbiterRelease_eq h s) (claimsDisjoint_release h)

theorem arbiterRequest_sound (h : HeadId) (low high age : Nat) (s : State) : Sound s (arbiterRequest h low high age s) := by
  refine .of_board (arbiterRequest_eq h low high age s) fun disjoint => ?_
  unfold arbiterRequest
  split
  · next fits => exact claimsDisjoint_grant fits disjoint
  · exact claimsDisjoint_set (by simp) disjoint

theorem arbiterWithdraw_sound (h : HeadId) (s : State) : Sound s (arbiterWithdraw h s) := by
  refine .of_board (arbiterWithdraw_eq h s) fun disjoint => ?_
  unfold arbiterWithdraw
  split
  · exact disjoint
  · exact claimsDisjoint_set (by simp) disjoint
  · exact claimsDisjoint_release h disjoint

theorem dropMsg_sound (h : HeadId) (s : State) : Sound s (dropMsg h s) :=
  .of_same rfl rfl rfl id rfl rfl rfl rfl

/-! ### Resets -/

theorem orphanBus_flight {bus : List BusReq} (one : ∀ r ∈ bus.tail, r.granted = false) :
    ∀ r ∈ (orphanBus bus).tail, r.granted = false := by
  cases bus with
  | nil => simp [orphanBus]
  | cons r rest =>
    have none : rest.filter (·.granted) = [] := by
      simpa [List.filter_eq_nil_iff] using one
    unfold orphanBus
    rw [List.filter_cons, none]
    split <;> simp

/-- With no event enabled an event sets its flag and sends no message (R170). -/
theorem control_raise_disabled {c : Control} (evten : c.evten = 0) (e : Event) :
    c.raise e = { c with evt := c.evt ||| e.mask } := by
  simp [Control.raise, Control.noteRise, Control.condition, evten]

/-- Handing on an ESTOP that a reset finds active leaves run control in ESTOP, with SAFE and RUNST raised. -/
theorem handOnEstop_reset_control {t : State} (heads : t.heads = Four.all Head.reset) (reader : t.reader = Reader.reset)
    (evt : t.control.evt = 0) (evten : t.control.evten = 0)
    (device : t.control.device = .stopped) (aborting : t.control.aborting = false) :
    (handOnEstop t).control = { t.control with device := .estop, evt := Event.safe.mask ||| Event.runst.mask } := by
  have carried : carry .estop (raise .safe t) = raise .safe t := carry_reset .estop heads reader
  have safe : (raise .safe t).control = { t.control with evt := Event.safe.mask } := by
    rw [raise_control, control_raise_disabled evten, evt]
    rfl
  have noted : handOnEstop t = setDevice .estop (modControl (fun c => { c with aborting := false }) (raise .safe t)) := by
    have still : (raise .safe t).control.device = .stopped := by rw [safe]; exact device
    unfold handOnEstop enterEstop
    simp only [carried, still]
  rw [noted, setDevice_control (by rw [modControl_control, safe]; simp [device]), modControl_control, safe,
    control_raise_disabled (by exact evten)]
  dsimp only
  rw [aborting]

/-- What a reset makes of run control (R129, R137, R178). -/
theorem resetBlocks_control (encoders lines : Nat) (control : Control) (s : State) (area : control.area = none)
    (evt : control.evt = 0) (evten : control.evten = 0) (device : control.device = .stopped)
    (aborting : control.aborting = false) : controlReset control (resetBlocks encoders lines control s) := by
  have active : (resetBlocks encoders lines control s).estopActive = (Inputs.firstSample lines).estop.level := by
    obtain ⟨c, e⟩ := resetBlocks_eq encoders lines control s area
    rw [e]
    rfl
  unfold controlReset
  rw [active]
  unfold resetBlocks handOnFirst
  split
  · next on =>
    rw [if_pos (show (Inputs.firstSample lines).estop.level = true from on)]
    exact handOnEstop_reset_control rfl rfl evt evten device aborting
  · next off => rw [if_neg (show ¬(Inputs.firstSample lines).estop.level = true from off)]

theorem resetBlocks_sound (encoders lines : Nat) (control : Control) (s : State) (area : control.area = none)
    (evt : control.evt = 0) (evten : control.evten = 0) (device : control.device = .stopped)
    (aborting : control.aborting = false) : Sound s (resetBlocks encoders lines control s) := by
  have run := resetBlocks_control encoders lines control s area evt evten device aborting
  obtain ⟨c, e⟩ := resetBlocks_eq encoders lines control s area
  rw [e] at run ⊢
  have rest : ∀ h : HeadId, ((Four.all Head.reset).get h) = Head.reset := fun h => Four.get_all ..
  have together : GangsAligned { State.reset with
      pending := s.pending, control := c, bus := orphanBus s.bus, stamp := s.stamp, choices := s.choices + 2,
      senses := firstSenses encoders, inputs := Inputs.firstSample lines } := fun h gang => by
    rw [State.head, show State.reset.heads = Four.all Head.reset from rfl, rest] at gang
    cases gang
  refine ⟨rfl, fun _ => ?_, orphanBus_flight, fun _ => ⟨together, fun h _ => ?_⟩, fun _ => ⟨together, fun active => ?_, fun h => ?_⟩⟩
  · intro h k l1 u1 l2 u2 _ held
    rw [show State.reset.claims = Four.all .empty from rfl, Four.get_all] at held
    cases held
  · rw [State.head, show State.reset.heads = Four.all Head.reset from rfl, rest]
    exact ⟨rfl, rfl, rfl⟩
  · rw [controlReset, if_pos active] at run
    exact .inl (by rw [run])
  · rw [State.head, show State.reset.heads = Four.all Head.reset from rfl, rest]
    exact ⟨fun _ => rfl, fun _ => ⟨rfl, rfl⟩⟩

end Sys2Proof.Machine

/-! ### Operator and safety inputs -/

namespace Sys2Proof.Machine

/-- Input lines may change as long as GUARD does not open and ESTOP does not become active. -/
theorem Sound.of_inputs {s : State} {i : Inputs} (guard : i.guard.level = true → s.guardOpen = true)
    (estop : i.estop.level = true → s.estopActive = true) : Sound s { s with inputs := i } where
  pending := rfl
  claims := id
  flight := id
  rams := id
  press := fun ⟨together, holds, quiet⟩ =>
    ⟨together, fun active => holds (estop active), fun h => ⟨fun g => (quiet h).1 (guard g), fun e => (quiet h).2 (estop e)⟩⟩

theorem setPair_sound (p : Pair) (s : State) : Sound s (setPair p s) := .of_inputs id id

theorem setPosReady_sound (h : HeadId) (level : Bool) (s : State) : Sound s (setPosReady h level s) := .of_inputs id id

theorem setRamTop_sound (h : HeadId) (level : Bool) (s : State) : Sound s (setRamTop h level s) := .of_inputs id id

theorem setPresent_sound (h : HeadId) (level : Bool) (s : State) : Sound s (setPresent h level s) := .of_inputs id id

theorem setStarts_sound (a b : Bool) (s : State) : Sound s (setStarts a b s) := .of_inputs id id

theorem setSample_sound (a b : Bool) (mask : BitVec 4) (s : State) : Sound s (setStarts a b (setMasks mask s)) :=
  .of_inputs id id

theorem pairCompletes_sound (s : State) : Sound s (pairCompletes s) := by
  unfold pairCompletes
  split
  · exact .refl s
  · exact .of_all (eachLead_worked s fun h _ => offerStart_worked h.mem_all _)

theorem pairPress_sound (bPressed both : Bool) (s : State) : Sound s (pairPress bPressed both s) := by
  unfold pairPress
  split
  · split
    · exact (setPair_sound ..).trans (pairCompletes_sound _)
    · exact setPair_sound ..
  · split
    · exact (setPair_sound ..).trans (pairCompletes_sound _)
    · exact setPair_sound ..
  · exact .refl s

theorem pairRelease_sound (a b : Bool) (s : State) : Sound s (pairRelease a b s) := by
  unfold pairRelease
  split
  · exact .refl s
  · split
    · exact setPair_sound ..
    · split <;> exact setPair_sound ..
  · split
    · exact setPair_sound ..
    · exact .refl s

section
variable {P : HeadState → Prop} {us : List HeadId}

theorem offerRelease_worked {x : HeadId} {s : State} (within : s.unit x ⊆ us) : Worked P us s (offerRelease x s) := by
  unfold offerRelease
  dsimp only
  split
  · exact haltUnit_worked within _
  · split
    · exact modHead_worked (within (mem_unit_self s x)) ⟨rfl, rfl, .inl⟩
    · exact .refl ..

theorem losePosition_worked {x : HeadId} {s : State} (within : s.unit x ⊆ us) : Worked P us s (losePosition x s) := by
  unfold losePosition
  split
  · exact haltUnit_worked within _
  · split
    · exact modHead_worked (within (mem_unit_self s x)) ⟨rfl, rfl, .inl⟩
    · exact .refl ..

theorem removalSeen_worked {x : HeadId} {s : State} (within : s.unit x ⊆ us) : Worked P us s (removalSeen x s) := by
  unfold removalSeen
  dsimp only
  split
  · exact haltUnit_worked within _
  · split
    · exact refuse_worked _ _ within
    · exact .refl ..

end

theorem guardClose_sound (s : State) : Sound s (eachLead tryStart (raise .safe (setGuard false s))) :=
  Sound.trans (t := setGuard false s) (.of_inputs (fun e => by cases e) id)
    (.of_all ((raise_worked ..).trans (eachLead_worked _ fun h _ => tryStart_worked h.mem_all _)))

theorem estopRelease_sound (s : State) : Sound s (estopExit (raise .safe (setEstop false s))) :=
  (Sound.trans (t := setEstop false s) (.of_inputs id (fun e => by cases e)) (.of_all (raise_worked ..))).trans
    (estopExit_sound _)

theorem ramTopRise_sound (h : HeadId) (s : State) :
    let t := modSense h (fun n => { n with depth := 0 }) (setRamTop h true s)
    Sound s (if (t.head (t.lead h)).state.rises then checkTop (t.lead h) t else t) := by
  intro t
  have set : Sound s t := (setRamTop_sound h true s).trans (.of_all (modSense_worked h.mem_all ..))
  split
  · exact set.trans (.of_all (checkTop_worked (subset_all _)))
  · exact set

/-! ### Preparation and the start -/

theorem activeWritten_worked {P : HeadState → Prop} (x : HeadId) (s : State) :
    Worked P HeadId.all s (activeWritten x s) := by
  unfold activeWritten
  split
  · exact .refl ..
  · exact (modHead_worked x.mem_all ⟨rfl, rfl, .inl⟩).trans (requestRead_worked ..)

theorem withdrawFound_worked {P : HeadState → Prop} (x : HeadId) (value : Option Byte) (s : State) :
    Worked P HeadId.all s (withdrawFound x value s) := by
  unfold withdrawFound
  split
  · exact refuse_worked _ _ (subset_all _)
  · split
    · exact (modHead_worked x.mem_all ⟨rfl, rfl, .inl⟩).trans (lookTools_worked (subset_all _))
    · exact refuse_worked _ _ (subset_all _)

theorem nudgeFound_worked {P : HeadState → Prop} (x : HeadId) (value : Option Byte) (s : State) :
    Worked P HeadId.all s (nudgeFound x value s) := by
  unfold nudgeFound
  split
  · exact .refl ..
  · split
    · exact refuse_worked _ _ (subset_all _)
    · exact .refl ..

theorem planRead_sound (x : HeadId) (data : Option (List Byte)) (s : State) : Sound s (planRead x data s) := by
  unfold planRead
  split
  · next prepare =>
    have allowed : s.admits .zoneWait := admits_of_before (x := x) (by rw [prepare]; rfl) fun _ => rfl
    split
    · split
      · exact .of_all (refuse_worked _ _ (subset_all _))
      · split
        · exact .of_all (refuse_worked _ _ (subset_all _))
        · exact .of_all ((setPlan_worked x.mem_all ..).trans (requestRead_worked ..))
        · exact .of_all (planBuilt_worked (subset_all _) _ allowed)
    · exact .refl s
  · exact .refl s

theorem startFound_sound (x : HeadId) (value : Option Byte) (s : State) : Sound s (startFound x value s) := by
  unfold startFound
  split
  · next waiting =>
    split
    · exact .of_all (refuse_worked _ _ (subset_all _))
    · split
      · exact .of_all (refuse_worked _ _ (subset_all _))
      · split
        · exact .of_all (modHead_worked x.mem_all ⟨rfl, rfl, .inl⟩)
        · next closed =>
          exact .of_all (enterApproach_worked _ (subset_all _)
            (admits_of_before (x := x) (by rw [waiting]; rfl) fun opened => absurd opened closed))
  · exact .refl s

/-- A grant that the head still waits for brings its unit to START_WAIT (R117). -/
theorem grantTaken_sound {h : HeadId} {age : Nat} {t : State} (wants : (t.head h).wantsGrant age = true) :
    Sound t (tryStart h (enterState .startWait h (modHead h (fun m => { m with claim := .held }) t))) := by
  have waiting : (t.head h).state = .zoneWait := by
    simp only [Head.wantsGrant, Bool.and_eq_true, decide_eq_true_eq] at wants
    exact wants.1.1
  have allowed : t.admits .startWait := admits_of_before (x := h) (by rw [waiting]; rfl) fun _ => rfl
  exact .of_all (((modHead_worked h.mem_all ⟨rfl, rfl, .inl⟩).trans
    (enterState_worked (subset_all _) rfl (.inr allowed))).trans (tryStart_worked h.mem_all _))

/-! ### Results -/

theorem traceWritten_worked {P : HeadState → Prop} (x : HeadId) (s : State) :
    Worked P HeadId.all s (traceWritten x s) := by
  unfold traceWritten
  extract_lets t
  have ht : Worked P HeadId.all s t := modHead_worked x.mem_all ⟨rfl, rfl, .inl⟩
  split
  · split
    · exact ht.trans (putEntry_worked _ x.mem_all ..)
    · exact ht
  · exact ht.trans (kickTrace_worked x.mem_all _)

theorem outcomeWritten_sound (x : HeadId) (s : State) : Sound s (outcomeWritten x s) := by
  unfold outcomeWritten
  split
  · exact .refl s
  · split
    · exact .refl s
    · exact .of_all (putEntry_worked _ x.mem_all ..)
    · exact .of_all ((modHead_worked x.mem_all ⟨rfl, rfl, .inl⟩).trans (putFields_worked x.mem_all ..))
    · exact .of_all (putDone_worked x.mem_all ..)
    · exact .of_all (report_worked (subset_all _) _ fun motion => admits_of_motion motion _)

/-! ### The tool bus -/

/-- The tool bus may change. -/
theorem Sound.of_toolBus (b : ToolBus) (s : State) : Sound s { s with toolBus := b } :=
  .of_same rfl rfl rfl id rfl rfl rfl rfl

theorem grantTool_sound (h : HeadId) (s : State) : Sound s (grantTool h s) := by
  unfold grantTool
  extract_lets tr s'
  have latched : Sound s s' := by
    dsimp only [s']
    split
    · exact .of_all (modTool_worked h.mem_all ..)
    all_goals exact .refl s
  exact latched.trans (.of_toolBus ..)

theorem endTransaction_sound (t : Transaction) (reply : Option (List Frame)) (s : State) :
    Sound s (endTransaction t reply s) := by
  have free : ∀ n, Sound s (freeLine n s) := fun _ => .of_toolBus ..
  unfold endTransaction
  dsimp only
  split
  · exact (free _).trans (.of_all (modTool_worked t.head.mem_all ..))
  · split
    · exact (free _).trans (.of_all (moveTool_worked ..))
    · exact (free _).trans (.of_all (moveTool_worked ..))

theorem toolRemoval_sound (h : HeadId) (s : State) :
    let t := setPresent h false s
    let t := if t.onToolBus h then freeLine 2000 t else t
    let t := modSense h (fun n => { n.abandonTare with tareValid := false }) t
    let t := raise .tool (changeTool h Tool.removal t)
    Sound s (removalSeen (t.lead h) t) := by
  intro a b c d
  have ha : Sound s a := setPresent_sound ..
  have hb : Sound s b := by
    dsimp only [b]
    split
    · exact ha.trans (.of_toolBus ..)
    · exact ha
  have hd : Sound s d := hb.trans (.of_all (((modSense_worked h.mem_all ..).trans (changeTool_worked h.mem_all ..)).trans
    (raise_worked ..)))
  exact hd.trans (.of_all (removalSeen_worked (subset_all _)))

/-! ### Registers -/

theorem writeBase_sound {f : Control → Control} {s : State} (device : (f s.control).device = s.control.device)
    (startEstop : (f s.control).startEstop = s.control.startEstop) : Sound s (writeBase f s) := by
  unfold writeBase
  split
  · exact (modControl_sound device startEstop).trans (.of_same rfl rfl rfl id rfl rfl rfl rfl)
  · exact .of_same rfl rfl rfl id rfl rfl rfl rfl

theorem setRefusal_sound (code : RefusalCode) (s : State) : Sound s (setRefusal code s) :=
  .of_same rfl rfl rfl id rfl rfl rfl rfl

theorem nudgeHead_worked {P : HeadState → Prop} {us : List HeadId} (x : HeadId) (s : State) :
    Worked P us s (nudgeHead x s) := by
  unfold nudgeHead
  split
  · exact .refl ..
  · split
    · exact requestRead_worked ..
    · exact .refl ..

theorem haltAgain_worked {P : HeadState → Prop} {us : List HeadId} {x : HeadId} {s : State} (within : s.unit x ⊆ us) :
    Worked P us s (haltAgain x s) :=
  (Worked.eachHead _ _ fun _ hk _ => putHaltReason_worked (within hk) ..).trans (raise_worked ..)

/-- A head at rest, which is no half of a gang, halted where it stands (R71). -/
theorem haltStill_worked {P : HeadState → Prop} {us : List HeadId} {x : HeadId} {s : State} (mine : x ∈ us)
    (rest : (s.head x).state.atRest = true) : Worked P us s (haltStill x s) := by
  cases gang : (s.head x).gang
  · have unit := unit_single gang
    have w := haltStills_worked (P := P) (us := us) (x := x) (s := s) (by simpa [unit] using mine)
    rw [unit] at w
    exact w
  · have apart : ¬GangsAligned s := fun together => by simp [(together x gang).2.2.2] at rest
    refine ⟨(setPlan_worked (P := P) mine ..).frame.trans (haltHead_frame mine ..),
      fun together => absurd together apart, fun together => absurd together apart, fun k => ?_⟩
    simp only [State.head, haltStill_heads, Four.get_set]
    split
    · exact .inr (.inl rfl)
    · exact .inl rfl

theorem hcmdHalt_sound (h : HeadId) (s : State) : Sound s (hcmdHalt h s) := by
  unfold hcmdHalt
  dsimp only
  split
  case h_1 | h_2 | h_3 | h_4 | h_5 | h_6 => exact .of_all (haltUnit_worked (subset_all _) _)
  case h_7 | h_8 | h_9 => exact .of_all (haltBefore_worked (subset_all _))
  case h_10 e => exact .of_all ((haltStill_worked (HeadId.mem_all _) (by rw [e]; rfl)).trans (raise_worked ..))
  case h_11 e => exact .of_all ((haltStill_worked (HeadId.mem_all _) (by rw [e]; rfl)).trans (raise_worked ..))
  case h_12 => exact .of_all (haltAgain_worked (subset_all _))

theorem releaseRefusal_none {s : State} {x : HeadId} (accepted : s.releaseRefusal x = .none) :
    s.guardOpen = false ∧ s.estopActive = false := by
  unfold State.releaseRefusal at accepted
  dsimp only at accepted
  split at accepted
  · cases accepted
  · split at accepted
    · cases accepted
    · next estop =>
      split at accepted
      · cases accepted
      · next guard => exact ⟨by simpa using guard, by simpa using estop⟩

theorem hcmdRelease_sound (h : HeadId) (s : State) : Sound s (hcmdRelease h s) := by
  unfold hcmdRelease
  dsimp only
  split
  · next accepted =>
    obtain ⟨guard, estop⟩ := releaseRefusal_none accepted
    exact (setRefusal_sound ..).trans (.of_all (rise_worked (subset_all _) rfl (admits_of_released guard estop _)))
  · exact setRefusal_sound ..

theorem hcmdWrite_sound (head command : Byte) (s : State) : Sound s (hcmdWrite head command s) := by
  unfold hcmdWrite
  split
  · exact setRefusal_sound ..
  · split
    · exact (setRefusal_sound ..).trans (hcmdHalt_sound ..)
    · split
      · exact hcmdRelease_sound ..
      · exact setRefusal_sound ..

theorem readFailed_sound (a : Access) (s : State) : Sound s (readFailed a s) := by
  unfold readFailed
  split
  case h_1 => exact setupFound_sound none s
  case h_2 => exact .of_all (linkFound_worked none s)
  case h_3 => exact .of_all (orderFetched_worked none s)
  case h_4 | h_5 => exact .of_all (tableRead_worked none s)
  case h_6 => exact .of_all (heldRead_worked none s)
  case h_7 => exact .of_all (withdrawFound_worked _ none s)
  case h_8 => exact .of_all (nudgeFound_worked _ none s)
  case h_9 => exact startFound_sound _ none s
  case h_10 => exact planRead_sound _ none s
  all_goals exact .refl s

theorem busWriteError_sound {s : State} {r : BusReq} {rest : List BusReq} (bus : s.bus = r :: rest) :
    Sound s (if r.fate = .orphaned then { s with bus := rest }
      else stopAdvance (deviceFault (writeLost r { s with bus := rest }))) := by
  split
  · exact freeBus_sound bus
  · exact (((freeBus_sound bus).trans (writeLost_sound ..)).trans (deviceFault_sound _)).trans
      (.of_all (stopAdvance_worked _))

end Sys2Proof.Machine

/-! ### Every command -/

namespace Sys2Proof.Machine

/-- A command with a premise: where that fails nothing changes (log 1). -/
theorem Sound.ifDue {c : Prop} [Decidable c] {s u : State} (acts : c → Sound s u) : Sound s (if c then u else s) := by
  split
  · next due => exact acts due
  · exact .refl s

theorem Sound.unless {c : Prop} [Decidable c] {s u : State} (acts : Sound s u) : Sound s (if c then s else u) := by
  split
  · exact .refl s
  · exact acts

/-- An access completes whose result concerns heads and reader alone. -/
theorem completed_sound (a : Access) {k : State → State} {s : State}
    (goesOn : ∀ t, Worked (fun _ => False) HeadId.all t (k t)) : Sound s (onComplete a k s) :=
  onComplete_sound a fun t => .of_worked ((goesOn t).mono (fun _ => False.elim) (List.Subset.refl _))

theorem headerWritten_sound (p : HeaderPart) (s : State) : Sound s (headerWritten p s) := by
  unfold headerWritten
  split
  · exact Sound.trans (t := { s with rewrite := s.rewrite.put p false }) (.of_same rfl rfl rfl id rfl rfl rfl rfl)
      (.of_all (requestPart_worked ..))
  · exact .of_same rfl rfl rfl id rfl rfl rfl rfl

theorem pollExpired_sound (s : State) :
    Sound s (requestLink (changeReader (fun r => { r with state := .reading, poll := none }) s)) :=
  .of_all ((changeReader_worked ..).trans (requestLink_worked _))

/-- A register write, or a reset, is sound. -/
theorem abort_sound (run : Bool) (s : State) : Sound s (match s.control.device with
    | .running | .stopping => abortNow s
    | .stopped | .starting | .estop | .setupErr | .fault => writeRun run s) := by
  split
  case h_1 | h_2 => exact abortNow_sound s
  all_goals exact writeRun_sound run s

theorem claimGrant_sound (h : HeadId) (s : State) : Sound s (match s.grants.get h with
    | none => s
    | some age =>
      let t := { s with grants := s.grants.set h none }
      if (t.head h).wantsGrant age then
        tryStart h (enterState .startWait h (modHead h (fun m => { m with claim := .held }) t))
      else t) := by
  split
  · exact .refl s
  · have gone : Sound s { s with grants := s.grants.set h none } := .of_same rfl rfl rfl id rfl rfl rfl rfl
    dsimp only
    split
    · next wants => exact gone.trans (grantTaken_sound wants)
    · exact gone

theorem takeOrder_sound (h : HeadId) (s : State) : Sound s (match s.takeable h with
    | none => s
    | some o => takeUp h o s) := by
  split
  · exact .refl s
  · next can => exact takeUp_sound can

theorem timedScanTick_sound (h : HeadId) (s : State) :
    Sound s (timedScan h (s.convertedByTick h) { s with choices := s.choices + 1 }) :=
  .of_all ((choices_worked (s.choices + 1) s).trans (timedScan_worked ..))

theorem exec_sound (i : Instr) (s : State) : ∃ u, exec i s = finish u ∧ Sound s u := by
  cases i
  case hardwareReset => exact ⟨_, rfl, resetBlocks_sound _ _ _ s rfl rfl rfl rfl rfl⟩
  case softReset rest => exact ⟨_, rfl, resetBlocks_sound _ _ _ s rfl rfl rfl rfl rfl⟩
  case runWritten1 => exact ⟨_, rfl, writeRun_sound true s⟩
  case runWritten0 => exact ⟨_, rfl, writeRun_sound false s⟩
  case abort run => exact ⟨_, rfl, abort_sound run s⟩
  case abaseLWrite value => exact ⟨_, rfl, writeBase_sound (by exact rfl) (by exact rfl)⟩
  case abaseHWrite value => exact ⟨_, rfl, writeBase_sound (by exact rfl) (by exact rfl)⟩
  case nudge value =>
    exact ⟨_, rfl, .of_all ((readerNudge_worked s).trans (eachLead_worked _ fun h _ => nudgeHead_worked h _))⟩
  case evtWrite value =>
    obtain ⟨n, e⟩ := noteRise_eq s.control { s.control with evt := s.control.evt &&& ~~~(value.setWidth 8) }
    exact ⟨_, rfl, modControl_sound (by rw [Control.clearEvents, e]) (by rw [Control.clearEvents, e])⟩
  case evtenWrite value =>
    obtain ⟨n, e⟩ := noteRise_eq s.control { s.control with evten := value.setWidth 8 }
    exact ⟨_, rfl, modControl_sound (by rw [Control.setEnables, e]) (by rw [Control.setEnables, e])⟩
  case hcmdHalt h => exact ⟨_, rfl, (setRefusal_sound ..).trans (hcmdHalt_sound ..)⟩
  case hcmdRelease h => exact ⟨_, rfl, hcmdRelease_sound h s⟩
  case badCommand head command => exact ⟨_, rfl, hcmdWrite_sound ..⟩
  case registerWriteIgnored target value => exact ⟨_, rfl, .refl s⟩
  case acceptedEdge h edge done => exact ⟨_, rfl, .of_all (edgeAccepted_worked ..)⟩
  case strokeGuardExpire h =>
    exact ⟨_, rfl, .ifDue fun _ => .of_all ((modHead_worked h.mem_all ⟨rfl, rfl, .inl⟩).trans
      (haltIn_worked (subset_all _) ..))⟩
  case timedScanTick h => exact ⟨_, rfl, .ifDue fun _ => timedScanTick_sound h s⟩
  case scanComplete h own companion race =>
    exact ⟨_, rfl, .of_all (scanFinished_worked _ _ _ _ _ fun motion =>
      ⟨admits_of_motion motion _, admits_of_motion motion _, admits_of_motion motion _⟩)⟩
  case dwellExpire h =>
    exact ⟨_, rfl, .ifDue fun _ => .of_all ((modHead_worked h.mem_all ⟨rfl, rfl, .inl⟩).trans
      (beginResults_worked h.mem_all _))⟩
  case guardOpen => exact ⟨_, rfl, .unless (guardOpen_sound s)⟩
  case guardClose => exact ⟨_, rfl, .ifDue fun _ => guardClose_sound s⟩
  case estopAssert => exact ⟨_, rfl, .unless (estopAssert_sound s)⟩
  case estopRelease => exact ⟨_, rfl, .ifDue fun _ => estopRelease_sound s⟩
  case startPress a b mask => exact ⟨_, rfl, .unless ((setSample_sound ..).trans (pairPress_sound ..))⟩
  case startRelease a b =>
    exact ⟨_, rfl, .ifDue fun _ => ((setStarts_sound ..).trans (pairRelease_sound ..)).trans
      (.of_all (eachLead_worked _ fun _ _ => offerRelease_worked (subset_all _)))⟩
  case pairWindowExpire =>
    refine ⟨_, rfl, ?_⟩
    split
    · exact .refl s
    · exact .refl s
    · exact .ifDue fun _ => setPair_sound ..
  case posReadyRise h =>
    exact ⟨_, rfl, .unless ((setPosReady_sound ..).trans (.of_all (tryStart_worked (HeadId.mem_all _) _)))⟩
  case posReadyFall h =>
    exact ⟨_, rfl, .ifDue fun _ => (setPosReady_sound ..).trans (.of_all (losePosition_worked (subset_all _)))⟩
  case ramTopRise h => exact ⟨_, rfl, .unless (ramTopRise_sound h s)⟩
  case ramTopFall h =>
    exact ⟨_, rfl, .ifDue fun _ => (setRamTop_sound h false s).trans
      (.ifDue fun _ => .of_all (refuse_worked _ _ (subset_all _)))⟩
  case toolAttach h =>
    exact ⟨_, rfl, .unless ((setPresent_sound h true s).trans
      (.of_all ((modSense_worked h.mem_all ..).trans (moveTool_worked ..))))⟩
  case toolRemoval h => exact ⟨_, rfl, .ifDue fun _ => toolRemoval_sound h s⟩
  case toolBusGrant idle =>
    refine ⟨_, rfl, .ifDue fun _ => ?_⟩
    split
    · exact .refl s
    · exact grantTool_sound ..
  case toolReply frames =>
    refine ⟨_, rfl, ?_⟩
    split
    · exact .refl s
    · exact endTransaction_sound ..
  case toolReplyTimeout =>
    refine ⟨_, rfl, ?_⟩
    split
    · exact .refl s
    · exact endTransaction_sound ..
  case tareComplete h =>
    refine ⟨_, rfl, ?_⟩
    split
    · exact .refl s
    · exact .ifDue fun _ => .of_all ((settleTare_worked h.mem_all ..).trans (taresDone_worked (HeadId.mem_all _) _))
  case setupReadDone data => exact ⟨_, rfl, onComplete_sound _ (setupFound_sound data)⟩
  case startHeaderWriteDone => exact ⟨_, rfl, onComplete_sound _ startHeaderWritten_sound⟩
  case startingEntry => exact ⟨_, rfl, startIfDue_sound s⟩
  case stopComplete => exact ⟨_, rfl, .ifDue enterStopped_sound⟩
  case faultExit => exact ⟨_, rfl, faultExitIfDue_sound s⟩
  case busWriteError =>
    refine ⟨_, rfl, ?_⟩
    split
    · exact .refl s
    · next bus => exact .ifDue fun _ => busWriteError_sound bus
  case takeOrder h => exact ⟨_, rfl, takeOrder_sound h s⟩
  case activeWriteDone h => exact ⟨_, rfl, completed_sound _ (activeWritten_worked h)⟩
  case withdrawReadDone h value =>
    refine ⟨_, rfl, ?_⟩
    split
    · exact completed_sound _ (nudgeFound_worked h value)
    · exact completed_sound _ (withdrawFound_worked h value)
  case startWithdrawReadDone h value => exact ⟨_, rfl, onComplete_sound _ (startFound_sound h value)⟩
  case planReadDone h data => exact ⟨_, rfl, onComplete_sound _ (planRead_sound h data)⟩
  case claimRequest h =>
    refine ⟨_, rfl, ?_⟩
    split
    · exact (dropMsg_sound ..).trans (arbiterRequest_sound ..)
    all_goals exact .refl s
  case claimGrant h => exact ⟨_, rfl, claimGrant_sound h s⟩
  case claimWithdraw h =>
    refine ⟨_, rfl, ?_⟩
    split
    · exact (dropMsg_sound ..).trans (arbiterWithdraw_sound ..)
    all_goals exact .refl s
  case claimRelease h =>
    refine ⟨_, rfl, ?_⟩
    split
    · exact (dropMsg_sound ..).trans (arbiterRelease_sound ..)
    all_goals exact .refl s
  case traceWriteDone h => exact ⟨_, rfl, completed_sound _ (traceWritten_worked h)⟩
  case outcomeWriteDone h => exact ⟨_, rfl, onComplete_sound _ (outcomeWritten_sound h)⟩
  case linkReadDone link => exact ⟨_, rfl, completed_sound _ (linkFound_worked link)⟩
  case orderFetchDone data => exact ⟨_, rfl, completed_sound _ (orderFetched_worked data)⟩
  case takeTableReadDone data => exact ⟨_, rfl, completed_sound _ (tableRead_worked data)⟩
  case heldWithdrawReadDone value => exact ⟨_, rfl, completed_sound _ (heldRead_worked value)⟩
  case takenWriteDone => exact ⟨_, rfl, completed_sound _ takenWritten_worked⟩
  case rejectWriteDone => exact ⟨_, rfl, completed_sound _ rejectWritten_worked⟩
  case stopWriteDone => exact ⟨_, rfl, completed_sound _ stopWritten_worked⟩
  case headerWriteDone part => exact ⟨_, rfl, onComplete_sound _ (headerWritten_sound part)⟩
  case pollTimerExpire => exact ⟨_, rfl, .ifDue fun _ => pollExpired_sound s⟩
  case busReadTimeout =>
    refine ⟨_, rfl, ?_⟩
    split
    · exact .refl s
    · exact .ifDue fun _ => onComplete_sound _ (readFailed_sound _)
  case frameAfterFailedTransaction frame => exact ⟨_, rfl, .ifDue fun _ => .of_toolBus ..⟩

end Sys2Proof.Machine

/-! ### Every step -/

namespace Sys2Proof.Machine

theorem grantAt_flight {s : State} (none : ∀ r ∈ s.bus, r.granted = false) (i : Nat) : OneInFlight (s.grantAt i) := by
  unfold State.grantAt
  split
  · exact fun r hr => none r (List.mem_of_mem_tail hr)
  · exact fun r hr => none r (List.mem_of_mem_eraseIdx hr)

/-- The arbiter grants an access only when none is in flight (log 3). -/
theorem grantNext_flight {s : State} (one : OneInFlight s) : OneInFlight (grantNext s) := by
  unfold grantNext
  split
  · exact one
  · next first rest bus =>
    split
    · exact one
    · next waits =>
      have none : ∀ r ∈ s.bus, r.granted = false := fun r hr => by
        rw [bus] at hr
        rcases List.mem_cons.mp hr with e | e
        · rw [e]; simpa using waits
        · exact one r (by rw [bus]; exact e)
      split
      · exact one
      · exact grantAt_flight none _
      · exact grantAt_flight none _

theorem finish_flight {u t : State} (one : OneInFlight u) (run : finish u = .next t) : OneInFlight t := by
  cases run
  exact grantNext_flight one

/-- What the answer of a command keeps. -/
theorem Sound.of_finish {s u t : State} (sound : Sound s u) (run : finish u = .next t) : Sound s t := by
  obtain ⟨t', run', ended⟩ := finish_ended u
  cases run.symm.trans run'
  obtain ⟨b, c, e⟩ := ended.parts
  refine ⟨ended.pending.trans sound.pending, fun d => ?_, fun one => finish_flight (sound.flight one) run, fun r => ?_,
    fun p => ?_⟩
  · rw [e]; exact sound.claims d
  · rw [e]; exact sound.rams r
  · rw [e]; exact sound.press p

/-- The invariants of the machine stand from `s` to `t`. -/
structure Keeps (s t : State) : Prop where
  claims : ClaimsDisjoint s → ClaimsDisjoint t
  flight : OneInFlight s → OneInFlight t
  rams : RamsStill s → RamsStill t
  press : PressSafe s → PressSafe t

/-- The queue stands outside what `Sound` speaks of. -/
theorem Sound.of_withPending {s t : State} {q : List Instr} (sound : Sound (s.withPending q) t) :
    Keeps s t :=
  ⟨sound.claims, sound.flight, sound.rams, sound.press⟩

/-- A period moves no ram and changes no level but by commands; so every invariant stands. -/
theorem idleStep_keeps (s : State) : Keeps s (idleStep s) := by
  rcases idleStep_cases s with ⟨q, _, _, e⟩ | e
  · rw [e]; exact ⟨id, id, id, id⟩
  · rw [e]
    rcases period_cases (Config.freeChoice s.choices) (Config.freeChoice (s.choices + 1)) s with
      ⟨n, q, c, m, e⟩ | ⟨n, q, c, e⟩
    · rw [e]; exact ⟨id, id, id, id⟩
    · generalize Config.freeChoice (s.choices + 1) = lines at e
      have heads : ∀ k, (period (Config.freeChoice s.choices) lines s).head k = (s.head k).tick := fun k => by
        rw [e]; exact Four.get_map ..
      have walk : Walk (fun _ => False) s (period (Config.freeChoice s.choices) lines s) := .of_steady fun k => by
        rw [heads]; exact ⟨rfl, rfl, .inl⟩
      rw [e] at walk ⊢
      refine ⟨id, id, fun ⟨together, held⟩ => ⟨walk.aligned together, walk.still together held⟩,
        fun ⟨together, holds, quiet⟩ => ⟨walk.aligned together, holds, fun h => ?_⟩⟩
      rcases walk.moved h with same | halted | rest | none
      · rw [same]; exact quiet h
      · exact ⟨fun _ => (settled_safe (.inl halted)).1, fun _ => settled_safe (.inl halted)⟩
      · exact ⟨fun _ => (settled_safe (.inr rest)).1, fun _ => settled_safe (.inr rest)⟩
      · exact none.elim

/-- What every step keeps. -/
theorem step_keeps {s t : State} (run : step s = .next t) :
    Keeps s t := by
  unfold step at run
  split at run
  · cases run
    exact idleStep_keeps s
  · next i rest _ =>
    obtain ⟨u, e, sound⟩ := exec_sound i (s.withPending rest)
    rw [e] at run
    exact (sound.of_finish run).of_withPending

/-- Settles O2, from what `exec_sound` says of every command. -/
theorem everyCommandIsAnsweredAndKeepsTheQueue : Obligations.EveryCommandIsAnsweredAndKeepsTheQueue := by
  intro i s
  obtain ⟨u, run, sound⟩ := exec_sound i s
  exact .of_finish run fun t ended => ended.pending.trans sound.pending

/-- Settles O3: a claim becomes HELD only where it is free of every other (R116, R120). -/
theorem stepKeepsHeldClaimsDisjoint : Obligations.StepKeepsHeldClaimsDisjoint :=
  fun _ _ disjoint run => (step_keeps run).claims disjoint

/-- Settles O4: states change unit by unit, and a unit that leaves the motion states is put on its brakes. -/
theorem stepKeepsRamsStill : Obligations.StepKeepsRamsStill :=
  fun _ _ still run => (step_keeps run).rams still

/-- Settles O5: a motion state is entered from a state that is admitted, or where guard and ESTOP allow it. -/
theorem stepKeepsPressSafe : Obligations.StepKeepsPressSafe :=
  fun _ _ safe run => (step_keeps run).press safe

/-- Settles O6: the arbiter grants only when no access is in flight. -/
theorem stepKeepsOneAccessInFlight : Obligations.StepKeepsOneAccessInFlight :=
  fun _ _ one run => (step_keeps run).flight one

end Sys2Proof.Machine

/-! ## Resets and registers -/

namespace Sys2Proof.Machine

/-! ### The reset state -/

theorem reset_gangsAligned : GangsAligned State.reset := fun h gang => by
  rw [State.head, show State.reset.heads = Four.all Head.reset from rfl, Four.get_all] at gang
  cases gang

/-- Settles O8. -/
theorem resetValuesAndInvariants : Obligations.ResetValuesAndInvariants := by
  have heads : ∀ h, State.reset.head h = Head.reset := fun h => Four.get_all Head.reset h
  refine ⟨⟨rfl, rfl, rfl, rfl, rfl, rfl, rfl, rfl, rfl, rfl, rfl, rfl, fun h => ?_⟩, ?_, ⟨reset_gangsAligned, ?_⟩,
    ⟨reset_gangsAligned, ?_, ?_⟩, ?_⟩
  · cases h <;> exact ⟨rfl, rfl, rfl, rfl, rfl, rfl, rfl, rfl, rfl, rfl, rfl, rfl⟩
  · intro h k l1 u1 l2 u2 _ held
    rw [show State.reset.claims = Four.all .empty from rfl, Four.get_all] at held
    cases held
  · intro h _
    rw [heads]
    exact ⟨rfl, rfl, rfl⟩
  · intro active
    cases active
  · intro h
    rw [heads]
    exact ⟨fun _ => rfl, fun _ => ⟨rfl, rfl⟩⟩
  · intro r hr
    cases hr

/-- Where every request has been granted nothing is left to grant. -/
theorem grantNext_granted {s : State} (all : ∀ r ∈ s.bus, r.granted = true) : grantNext s = s := by
  unfold grantNext
  split
  · rfl
  · next r rest bus => rw [if_pos (all r (by rw [bus]; exact List.mem_cons_self))]

theorem orphanBus_granted (bus : List BusReq) : ∀ r ∈ orphanBus bus, r.granted = true := by
  intro r hr
  obtain ⟨q, hq, rfl⟩ := List.mem_map.mp hr
  exact (List.mem_filter.mp hq).2

/-- A run control in its reset state but for the endpoint's values and the cause. -/
def Control.resetAs (cause : ResetCause) (c k : Control) : Prop :=
  k = { Control.reset with
    resetCause := cause, msiSelected := c.msiSelected, msiSent := c.msiSent, barBase := c.barBase }

/-- What the registers read after a reset (R168, R178). -/
theorem registersReset_of {cause : ResetCause} {c k : Control} {t : State} (plain : Control.resetAs cause c k)
    (control : controlReset k t) (reader : t.reader = Reader.reset) :
    registersReset (BitVec.ofNat 32 (16777216 * cause.code)) t := by
  rw [Control.resetAs] at plain
  subst plain
  intro offset
  have sta : t.staWord = if t.estopActive then BitVec.ofNat 32 (16777216 * cause.code) ||| 4
      else BitVec.ofNat 32 (16777216 * cause.code) := by
    unfold State.staWord
    rw [control, reader]
    split <;> cases cause <;>
      simp [Control.reset, Reader.reset, DeviceState.code, ReaderState.code, RefusalCode.code, ResetCause.code]
  have evt : t.control.evt.setWidth 32 = if t.estopActive then 0xC0 else 0 := by
    rw [control]
    split <;> rfl
  have rest : t.control.run = false ∧ t.control.abaseL = 0 ∧ t.control.abaseH = 0 ∧ t.control.evten = 0 := by
    rw [control]
    split <;> exact ⟨rfl, rfl, rfl, rfl⟩
  obtain ⟨run, abaseL, abaseH, evten⟩ := rest
  unfold readRegister
  rw [sta, evt, run, abaseL, abaseH, evten]
  by_cases o0 : offset = 0x00
  · simp [o0]
  by_cases o8 : offset = 0x08
  · simp [o8]
  by_cases o18 : offset = 0x18
  · simp [o18]
  simp [o0, o8, o18]

/-- A reset is over at once: what it leaves of the bus has been granted. -/
theorem reset_answers {i : Instr} {s : State} {c k : Control} {cause : ResetCause}
    (run : exec i s = finish (resetDevice k s)) (plain : Control.resetAs cause c k) : Answers i s (fun t =>
      blocksReset s t ∧ controlReset k t ∧ registersReset (BitVec.ofNat 32 (16777216 * cause.code)) t) := by
  have area : k.area = none := by rw [plain]; rfl
  have blocks : blocksReset s (resetDevice k s) := resetBlocks_reset _ _ k s area
  have control : controlReset k (resetDevice k s) :=
    resetBlocks_control _ _ k s area (by rw [plain]; rfl) (by rw [plain]; rfl) (by rw [plain]; rfl) (by rw [plain]; rfl)
  obtain ⟨reader, heads, plans, tools, toolBus, claims, msgs, grants, senses, inputs, rewrite, bus, pending⟩ := blocks
  have still : grantNext (resetDevice k s) = resetDevice k s :=
    grantNext_granted (by rw [bus]; exact orphanBus_granted _)
  refine ⟨{ grantNext (resetDevice k s) with stamp := (resetDevice k s).stamp + 1 }, run, ?_⟩
  rw [still]
  exact ⟨⟨reader, heads, plans, tools, toolBus, claims, msgs, grants, senses, inputs, rewrite, bus, pending⟩, control,
    registersReset_of plain control reader⟩

/-- Settles O7, from what a reset leaves of the blocks and of run control. -/
theorem resetsClearEveryBlock : Obligations.ResetsClearEveryBlock := fun s _ =>
  ⟨reset_answers (cause := .pin) (c := Control.reset) rfl rfl, reset_answers (cause := .soft) (c := s.control) rfl rfl⟩

/-! ### Registers that store, or change nothing -/

/-- What a command does to run control alone. -/
theorem Answers.of_modControl {i : Instr} {s : State} {f : Control → Control} {P : State → Prop}
    (run : exec i s = finish (modControl f s))
    (holds : ∀ t, t.control = f s.control → sameBlocks s t → sameBus s t → P t) : Answers i s P :=
  .of_finish run fun t e => holds t e.control e.sameBlocks e.sameBus

theorem writeBase_eq (f : Control → Control) (s : State) : writeBase f s =
    modControl (fun c => if c.device = .stopped then { f c with lastRefusal := .none }
      else { c with lastRefusal := .baseLocked }) s := by
  unfold writeBase
  split
  · next stopped => simp [setRefusal, modControl, stopped]
  · next other => simp [setRefusal, modControl, other]

theorem HeadId.ofNat?_toNat (h : HeadId) : HeadId.ofNat? h.toNat = some h := by cases h <;> rfl

theorem HeadId.ofNat?_none {n : Nat} (large : 3 < n) : HeadId.ofNat? n = none := by
  obtain ⟨m, rfl⟩ := Nat.exists_eq_add_of_lt large
  rw [show 3 + m + 1 = m + 4 by omega]
  rfl

theorem hcmdWrite_bad {head command : Byte} (bad : (Instr.badCommand head command).wellFormed = true) (s : State) :
    hcmdWrite head command s = setRefusal .badCommand s := by
  have known : ∀ h, HeadId.ofNat? head.toNat = some h → command ≠ 1 ∧ command ≠ 2 := by
    intro h named
    have small : ¬3 < head.toNat := fun large => by
      rw [HeadId.ofNat?_none large] at named
      cases named
    simp only [Instr.wellFormed, small, decide_false, Bool.false_or, Bool.and_eq_true, decide_eq_true_eq] at bad
    exact ⟨fun e => bad.1 (by rw [e]; rfl), fun e => bad.2 (by rw [e]; rfl)⟩
  unfold hcmdWrite
  split
  · rfl
  · next h named =>
    rw [if_neg (known h named).1, if_neg (known h named).2]

theorem commandOfHcmd_bad {value : Word}
    (bad : 3 < (value.extractLsb' 0 8).toNat ∨ value.extractLsb' 8 8 ≠ 1 ∧ value.extractLsb' 8 8 ≠ 2) :
    commandOfHcmd value = .badCommand (value.extractLsb' 0 8) (value.extractLsb' 8 8) := by
  unfold commandOfHcmd
  dsimp only
  split
  · rfl
  · next h named =>
    rcases bad with large | ⟨halt, release⟩
    · rw [HeadId.ofNat?_none large] at named; cases named
    · rw [if_neg halt, if_neg release]

/-- Settles O13. -/
theorem registerWritesThatStoreOrNothing : Obligations.RegisterWritesThatStoreOrNothing := by
  refine ⟨fun s value => ⟨?_, ?_⟩, fun s => ⟨fun head command bad => ?_, fun target value => ?_⟩, fun value => ?_⟩
  · exact .of_modControl (congrArg finish (writeBase_eq _ s)) fun t control blocks bus => ⟨control, blocks, bus⟩
  · exact .of_modControl (congrArg finish (writeBase_eq _ s)) fun t control blocks bus => ⟨control, blocks, bus⟩
  · exact .of_modControl (f := fun c => { c with lastRefusal := .badCommand })
      (congrArg finish (hcmdWrite_bad bad s)) fun t control blocks bus => ⟨control, blocks, bus⟩
  · exact .of_modControl (f := id) rfl fun t control blocks bus => ⟨control, blocks, bus⟩
  · refine ⟨rfl, rfl, rfl, rfl, rfl, rfl, rfl, rfl, fun h named => ?_, fun bad => ?_, fun offset beyond => ?_⟩
    · have known : HeadId.ofNat? (value.extractLsb' 0 8).toNat = some h := by rw [named, HeadId.ofNat?_toNat]
      have hcmd : commandOfWrite 0x20 value = some (commandOfHcmd value) := rfl
      unfold commandOfHcmd at hcmd
      dsimp only at hcmd
      rw [known] at hcmd
      refine ⟨fun halt => ?_, fun release => ?_⟩
      · rw [hcmd, halt]; rfl
      · rw [hcmd, release]; rfl
    · exact congrArg some (commandOfHcmd_bad bad)
    · unfold commandOfWrite
      rw [if_pos beyond]

/-! ### EVT, EVTEN and the interrupt -/

/-- A message is sent where the condition rises with MSI (R170). -/
theorem noteRise_sent (before after : Control) : Control.noteRise before after =
    { after with
      msiSent := after.msiSent + (if after.msiSelected = true ∧ before.evt &&& before.evten = 0 ∧
        after.evt &&& after.evten ≠ 0 then 1 else 0) } := by
  have rises : (after.msiSelected && !before.condition && after.condition) = true ↔
      after.msiSelected = true ∧ before.evt &&& before.evten = 0 ∧ after.evt &&& after.evten ≠ 0 := by
    simp [Control.condition, and_assoc]
  unfold Control.noteRise
  by_cases up : (after.msiSelected && !before.condition && after.condition) = true
  · rw [if_pos up, if_pos (rises.mp up)]
  · rw [if_neg up, if_neg (mt rises.mpr up)]
    rfl

/-- A flag set is `flagSet` of its mask (R170). -/
theorem control_raise_flagSet (c : Control) (e : Event) : c.raise e = flagSet e.mask c := noteRise_sent ..

theorem raise_flagSet (e : Event) (s : State) : raise e s = { s with control := flagSet e.mask s.control } := by
  rw [← control_raise_flagSet]
  rfl

/-- A write to EVT can only lower the condition, and sends no message. -/
theorem clearEvents_eq (c : Control) (value : Word) :
    c.clearEvents value = { c with evt := c.evt &&& ~~~(value.setWidth 8) } := by
  have falls : c.evt &&& c.evten = 0 → c.evt &&& ~~~(value.setWidth 8) &&& c.evten = 0 := fun low => by
    rw [BitVec.and_assoc, BitVec.and_comm (~~~(value.setWidth 8)), ← BitVec.and_assoc, low]
    simp
  rw [Control.clearEvents, noteRise_sent, if_neg (fun ⟨_, low, high⟩ => high (falls low))]
  rfl

theorem setEnables_eq (c : Control) (value : Word) : c.setEnables value =
    { c with
      evten := value.setWidth 8
      msiSent := c.msiSent + (if c.msiSelected ∧ c.evt &&& c.evten = 0 ∧ c.evt &&& value.setWidth 8 ≠ 0 then 1 else 0) } :=
  noteRise_sent ..

theorem tryStart_control (x : HeadId) (s : State) : (tryStart x s).control = s.control := by
  unfold tryStart
  split
  · unfold readForStart
    split <;> rfl
  · rfl

/-- What no operation of a round changes, the round does not change. -/
theorem eachLead_keeps {α : Type} (g : State → α) {f : HeadId → State → State} (one : ∀ h s, g (f h s) = g s) (s : State) :
    g (eachLead f s) = g s :=
  eachHead_keeps (P := fun u => g u = g s) (fun h u e => by
    split
    · rw [one, e]
    · exact e) _ _ rfl

/-- The bus set. -/
def State.withBus (b : List BusReq) (s : State) : State := { s with bus := b }

/-- A completed read reaches the block that asked for it. -/
theorem onComplete_live {a : Access} {s : State} (flight : inFlightFor a s) :
    ∃ rest, ∀ k, onComplete a k s = k (s.withBus rest) := by
  obtain ⟨r, rest, bus, granted, live, access⟩ := flight
  exact ⟨rest, fun k => onComplete_inFlight k bus granted live access⟩

theorem changeReader_control (f : Reader → Reader) (s : State) : (changeReader f s).control = s.control := by
  obtain ⟨b, r, e⟩ := changeReader_eq f s
  rw [e]

theorem readerFault_control (why : ChainFault) (s : State) :
    (readerFault why s).control = s.control.raise .cherr := by
  rw [readerFault, raise_control, changeReader_control]

/-- Settles O15. -/
theorem eventRegisterWrites : Obligations.EventRegisterWrites := by
  refine ⟨fun c => ?_, rfl, fun s e => raise_flagSet e s, fun s opened => ?_, fun s flight => ?_, fun s value => ⟨?_, ?_⟩⟩
  · simp [Control.interruptLine, Control.condition]
  · refine .of_finish (u := eachLead tryStart (raise .safe (setGuard false s))) ?_ fun t e => ?_
    · show finish (if s.guardOpen = true then _ else _) = _
      rw [if_pos opened]
    · rw [e.control, eachLead_keeps State.control tryStart_control]
      exact control_raise_flagSet s.control .safe
  · obtain ⟨rest, run⟩ := onComplete_live flight
    refine .of_finish (congrArg finish (run _)) fun t e => ?_
    rw [e.control]
    exact (readerFault_control ..).trans (control_raise_flagSet s.control .cherr)
  · refine .of_modControl rfl fun t control blocks bus => ?_
    rw [control, clearEvents_eq]
    exact ⟨rfl, rfl, rfl, blocks, bus⟩
  · refine .of_modControl rfl fun t control blocks bus => ?_
    rw [control, setEnables_eq]
    exact ⟨rfl, rfl, rfl, rfl, rfl, blocks, bus⟩

end Sys2Proof.Machine

/-! ## Run control -/

namespace Sys2Proof.Machine

/-! ### Starting -/

theorem request_mem (a : Access) (addr : BitVec 64) (len : Nat) (data : List Byte) (s : State) :
    ∃ r ∈ (request a addr len data s).bus, r.access = a ∧ r.addr = addr ∧ r.len = len ∧ r.data = data ∧
      r.fate = .live :=
  ⟨_, List.mem_append_right _ (List.mem_singleton.mpr rfl), rfl, rfl, rfl, rfl, rfl⟩

theorem startNow_begun {s t : State} (stopped : s.control.device = .stopped) (run : s.control.run = true)
    (e : Ended (startNow s) t) : startBegun s t := by
  have entered : flagged .runst (setDevice .starting (leaveArea s)) :=
    setDevice_runst (by rw [leaveArea_device, stopped]; decide)
  obtain ⟨g, n, kept⟩ := setDevice_kept .starting (leaveArea s)
  obtain ⟨c, b, w, parts⟩ := setDevice_touches .starting (leaveArea s)
  have control : t.control = { (setDevice .starting (leaveArea s)).control with
      setupError := 0, startBase := s.control.abaseH ++ s.control.abaseL, startGivenUp := false, startEstop := false } :=
    e.control
  have area : leaveArea s = { s with
      control := { s.control with area := none }, bus := (leaveArea s).bus, rewrite := RewriteMarks.reset,
      reader := { s.reader with op := .none, stopping := none } } := rfl
  have blocks := e.sameBlocks
  have made : startNow s = { setDevice .starting (leaveArea s) with
      control := t.control, bus := (startNow s).bus } := by rw [control]; rfl
  rw [made, parts, area] at blocks
  obtain ⟨heads, tools, board, reader, inputs, pending⟩ := blocks
  refine ⟨?_, ?_, ?_, ?_, ?_, ?_, heads, tools, board, inputs, pending, reader⟩
  · rw [control, kept]; exact run
  · rw [control, kept]
  · rw [control]
  · rw [control]
  · rw [flagged, control]; exact entered
  · obtain ⟨r, hr, ha, hd, hl, _, hf⟩ := request_mem .setupRead (s.control.abaseH ++ s.control.abaseL + 256) 256 []
      (modControl (fun c => { c with
        setupError := 0, startBase := s.control.abaseH ++ s.control.abaseL, startGivenUp := false, startEstop := false })
        (setDevice .starting (leaveArea s)))
    obtain ⟨q, hq, qa, qd, qf, ql⟩ := e.kept r hr
    exact ⟨q, hq, qa.trans ha, qf.trans hf, (ql (by simp [ha]) (by simp [ha])).1.trans hl, qd.trans hd⟩

theorem startNow_aborting (s : State) : (startNow s).control.aborting = s.control.aborting := by
  obtain ⟨g, n, kept⟩ := setDevice_kept .starting (leaveArea s)
  have same : (startNow s).control.aborting = (setDevice .starting (leaveArea s)).control.aborting := rfl
  rw [same, kept]
  rfl

/-- Settles O9, from what the entry to STARTING shows. -/
theorem runOneStartsAStoppedDevice : Obligations.RunOneStartsAStoppedDevice := by
  intro s stopped quiet
  have due : ∀ t : State, t.control.device = .stopped → t.control.run = true → t.control.staleRun = false →
      t.anyWriting = false → startIfDue t = startNow t := fun t d r f w => by
    simp [startIfDue, State.startDue, d, r, f, w]
  refine ⟨.of_finish rfl fun t e => ?_, fun run fresh => .of_finish rfl fun t e => ?_,
    fun stale => .of_finish (u := s) ?_ fun t e => ⟨e.control, e.sameBlocks, e.sameBus⟩⟩
  · have start : writeRun true s = startNow (modControl (fun c => { c with run := true, staleRun := false }) s) := by
      have reads : (modControl (fun c => { c with run := true, staleRun := false }) s).control.device = .stopped :=
        stopped
      unfold writeRun
      simp only [reads]
      exact due _ stopped rfl rfl quiet
    rw [start] at e
    exact startNow_begun (s := modControl (fun c => { c with run := true, staleRun := false }) s) stopped rfl e
  · rw [due s stopped run fresh quiet] at e
    exact startNow_begun stopped run e
  · show finish (startIfDue s) = finish s
    simp [startIfDue, State.startDue, stale]

/-! ### RUN written elsewhere -/

theorem setDevice_sameBlocks (d : DeviceState) (s : State) : sameBlocks s (setDevice d s) := by
  obtain ⟨c, b, r, e⟩ := setDevice_touches d s
  rw [e]
  exact ⟨⟨rfl, rfl, rfl⟩, ⟨rfl, rfl⟩, ⟨rfl, rfl, rfl⟩, rfl, rfl, rfl⟩

theorem sameBlocks.trans {s t u : State} (a : sameBlocks s t) (b : sameBlocks t u) : sameBlocks s u := by
  obtain ⟨⟨a1, a2, a3⟩, ⟨a4, a5⟩, ⟨a6, a7, a8⟩, a9, a10, a11⟩ := a
  obtain ⟨⟨b1, b2, b3⟩, ⟨b4, b5⟩, ⟨b6, b7, b8⟩, b9, b10, b11⟩ := b
  exact ⟨⟨b1.trans a1, b2.trans a2, b3.trans a3⟩, ⟨b4.trans a4, b5.trans a5⟩,
    ⟨b6.trans a6, b7.trans a7, b8.trans a8⟩, b9.trans a9, b10.trans a10, b11.trans a11⟩

/-- RUN written 1 where it starts nothing. -/
theorem writeRun_true_of_out {s : State} (out : s.control.device ≠ .stopped ∨ s.anyWriting = true) :
    writeRun true s = modControl (fun c => { c with run := true, staleRun := false }) s := by
  cases d : s.control.device
  case stopped =>
    have reads : (modControl (fun c => { c with run := true, staleRun := false }) s).control.device = .stopped := d
    have busy : (modControl (fun c => { c with run := true, staleRun := false }) s).anyWriting = true :=
      out.resolve_left fun other => other d
    unfold writeRun
    simp only [reads]
    simp [startIfDue, State.startDue, busy]
  all_goals
    unfold writeRun
    simp [d]

/-- RUN set to 0. -/
def runCleared (s : State) : State := modControl (fun c => { c with run := false, staleRun := false }) s

/-- What RUN written 0 outside RUNNING goes on to: nothing, the end of a start, or STOPPED. -/
theorem writeRun_false_of_out {s : State} (out : s.control.device ≠ .running ∨ s.control.aborting = true) :
    writeRun false s = (match s.control.device with
      | .starting => modControl (fun c => { c with startGivenUp := true }) (runCleared s)
      | .estop => if s.estopActive then runCleared s else setDevice .stopped (runCleared s)
      | .setupErr => setDevice .stopped (runCleared s)
      | .fault => if s.faultQuiet then setDevice .stopped (runCleared s) else runCleared s
      | .stopped | .running | .stopping => runCleared s) := by
  unfold writeRun
  extract_lets c
  change _ = (match s.control.device with
      | .starting => modControl (fun c => { c with startGivenUp := true }) c
      | .estop => if s.estopActive then c else setDevice .stopped c
      | .setupErr => setDevice .stopped c
      | .fault => if s.faultQuiet then setDevice .stopped c else c
      | .stopped | .running | .stopping => c)
  have run : c.control.run = false := rfl
  have aborts : c.control.aborting = s.control.aborting := rfl
  have active : c.estopActive = s.estopActive := rfl
  have quiet : c.faultQuiet = s.faultQuiet := rfl
  have device : c.control.device = s.control.device := rfl
  clear_value c
  cases d : s.control.device <;> rw [d] at device <;> simp only [device]
  case running => rw [if_pos (aborts.trans (out.resolve_left fun other => other d))]
  case estop => cases a : s.estopActive <;> simp [estopExit, device, run, active, a]
  case fault => cases q : s.faultQuiet <;> simp [faultExitIfDue, device, run, quiet, q]

theorem afterRunZero_of_out {s : State} (out : s.control.device ≠ .running ∨ s.control.aborting = true) :
    (writeRun false s).control.run = false ∧ (writeRun false s).control.device = afterRunZero s ∧
      (writeRun false s).control.startGivenUp = (s.control.startGivenUp || decide (s.control.device = .starting)) ∧
      sameBlocks s (writeRun false s) := by
  have same : ∀ (f : Control → Control) (t : State), sameBlocks t (modControl f t) := fun _ _ =>
    ⟨⟨rfl, rfl, rfl⟩, ⟨rfl, rfl⟩, ⟨rfl, rfl, rfl⟩, rfl, rfl, rfl⟩
  have cleared : sameBlocks s (runCleared s) := same _ s
  have left : (setDevice .stopped (runCleared s)).control.run = false ∧
      (setDevice .stopped (runCleared s)).control.device = .stopped ∧
      (setDevice .stopped (runCleared s)).control.startGivenUp = s.control.startGivenUp ∧
      sameBlocks s (setDevice .stopped (runCleared s)) := by
    obtain ⟨g, n, e⟩ := setDevice_kept .stopped (runCleared s)
    rw [e]
    exact ⟨rfl, rfl, rfl, cleared.trans (setDevice_sameBlocks ..)⟩
  rw [writeRun_false_of_out out, afterRunZero]
  cases d : s.control.device
  case starting => exact ⟨rfl, d, by simp [modControl], cleared.trans (same _ _)⟩
  case setupErr => simpa using left
  case estop =>
    cases s.estopActive
    · simpa using left
    · exact ⟨rfl, d, by simp [runCleared], cleared⟩
  case fault =>
    cases s.faultQuiet
    · exact ⟨rfl, d, by simp [runCleared], cleared⟩
    · simpa using left
  all_goals exact ⟨rfl, d, by simp [runCleared], cleared⟩

/-- Settles O10. -/
theorem controlWritesElsewhere : Obligations.ControlWritesElsewhere := by
  refine ⟨fun s out => ?_, fun s out => ?_, fun s run notRunning notStopping => ?_⟩
  · exact .of_modControl (congrArg finish (writeRun_true_of_out out)) fun t control blocks bus => ⟨control, blocks, bus⟩
  · obtain ⟨run, device, givenUp, blocks⟩ := afterRunZero_of_out out
    refine .of_finish rfl fun t e => ?_
    rw [e.control]
    exact ⟨run, device, givenUp, blocks.trans e.sameBlocks⟩
  · have elsewhere : exec (.abort run) s = finish (writeRun run s) := by
      show finish (match s.control.device with
        | .running | .stopping => abortNow s
        | .stopped | .starting | .estop | .setupErr | .fault => writeRun run s) = _
      cases d : s.control.device <;> simp_all
    rw [elsewhere]
    cases run <;> rfl

end Sys2Proof.Machine

/-! ### A stop at every head leaves the tools and the claim table -/

namespace Sys2Proof.Machine

/-- `t` is `s` but for what the press may touch and the messages to the arbiter. -/
def StopTouched (s t : State) : Prop := ∃ l, PressTouched { s with claimMsgs := l } t

theorem PressTouched.stop {s t : State} (h : PressTouched s t) : StopTouched s t := ⟨s.claimMsgs, h⟩

theorem StopTouched.rfl {s : State} : StopTouched s s := PressTouched.rfl.stop

theorem StopTouched.trans {s t u : State} : StopTouched s t → StopTouched t u → StopTouched s u := by
  rintro ⟨_, _, _, _, _, _, _, e⟩ ⟨l, m, n, p, k, b, r, e'⟩
  exact ⟨l, m, n, p, k, b, r, by rw [e', e]⟩

theorem letGo_stop (x : HeadId) (s : State) : StopTouched s (letGo x s) := by
  have told : ∀ m t, StopTouched t (sendClaim x m t) := fun m t => ⟨_, PressTouched.rfl⟩
  unfold letGo
  dsimp only
  split
  · exact .rfl
  · exact (modHead_press ..).stop.trans (told ..)
  · exact (modHead_press ..).stop.trans (told ..)

theorem endWork_stop (x : HeadId) (s : State) : StopTouched s (endWork x s) := by
  unfold endWork
  extract_lets a b c d
  have hb : StopTouched s b := ((dropRequests_touches ..).press.trans
    (eachHead_press (fun h s => modSense_press h _ s) _ a)).stop
  have hc : StopTouched s c := by
    dsimp only [c]
    split
    · exact hb.trans (setPlan_press ..).stop
    all_goals exact hb
  exact (hc.trans (letGo_stop x c)).trans (modHead_press ..).stop

theorem stopBefore_stop (reason : Reason) (st : HeadId → HeadState) (x : HeadId) (s : State) :
    StopTouched s (stopBefore reason st x s) :=
  ((endWork_stop x s).trans (closeBefore_press ..).stop).trans (goRest_press ..).stop

theorem stopUnit_stop (why : Reason) (x : HeadId) (s : State) : StopTouched s (stopUnit why x s) := by
  unfold stopUnit
  dsimp only
  split
  · exact (haltUnit_press ..).stop
  · split
    · exact stopBefore_stop ..
    · split
      · exact (goRest_press ..).stop
      · exact .rfl

theorem stopUnitIdle_stop (x : HeadId) (s : State) : StopTouched s (stopUnitIdle x s) := by
  unfold stopUnitIdle
  split
  · exact stopBefore_stop ..
  · exact .rfl

theorem eachLead_stop {f : HeadId → State → State} (one : ∀ h s, StopTouched s (f h s)) (s : State) :
    StopTouched s (eachLead f s) :=
  eachHead_relates (fun _ => .rfl) (fun _ _ _ => .trans) (fun h s => by
    split
    · exact one h s
    · exact .rfl) HeadId.all s

/-- What no stop touches. -/
structure StopKept (s t : State) : Prop where
  claims : t.claims = s.claims
  tools : sameTools s t
  inputs : t.inputs = s.inputs

theorem StopTouched.kept {s t : State} (touched : StopTouched s t) : StopKept s t := by
  obtain ⟨_, _, _, _, _, _, _, rfl⟩ := touched
  exact ⟨Eq.refl _, ⟨Eq.refl _, Eq.refl _⟩, Eq.refl _⟩

theorem ReaderTouched.kept {s t : State} (touched : ReaderTouched s t) : StopKept s t := by
  obtain ⟨_, _, _, _, rfl⟩ := touched
  exact ⟨Eq.refl _, ⟨Eq.refl _, Eq.refl _⟩, Eq.refl _⟩

theorem StopKept.trans {s t u : State} (a : StopKept s t) (b : StopKept t u) : StopKept s u :=
  ⟨b.claims.trans a.claims, ⟨b.tools.1.trans a.tools.1, b.tools.2.trans a.tools.2⟩, b.inputs.trans a.inputs⟩

theorem Ended.stopKept {u t : State} (e : Ended u t) : StopKept u t := ⟨e.claims, ⟨e.tools, e.toolBus⟩, e.inputs⟩

theorem carry_kept (why : Reason) (s : State) : StopKept s (carry why s) :=
  (eachLead_stop (stopUnit_stop why) s).kept.trans (stopReader_touches why _).kept

/-! ### The chain reader stopped -/

theorem stopAdvance_reader (s : State) :
    ∃ op stopping, (stopAdvance s).reader = { s.reader with op := op, stopping := stopping } := by
  unfold stopAdvance
  split
  · split
    · exact ⟨_, s.reader.stopping, rfl⟩
    · obtain ⟨b, r, e⟩ := changeReader_eq (fun r => { r with stopping := none }) s
      exact ⟨s.reader.op, none, by rw [e]⟩
  · exact ⟨s.reader.op, s.reader.stopping, rfl⟩

/-- The reader is STOPPED, and where it is stopped now what it waited for is given up (R155). -/
theorem readerStop_reader (why : Reason) (s : State) : (readerStop why s).reader.state = .stopped ∧
    (readerStop why s).reader.heldSlot = none ∧ (readerStop why s).reader.poll = none ∧
    (readerStop why s).reader.pendingNudge = false := by
  unfold readerStop
  extract_lets a b
  obtain ⟨op, stopping, e⟩ := stopAdvance_reader b
  obtain ⟨_, _, eb⟩ := changeReader_eq (fun r =>
    { r with state := .stopped, heldSlot := none, poll := none, pendingNudge := false, stopping := some why, op := if r.op.isWrite then r.op else .none }) a
  rw [e, show b = _ from eb]
  exact ⟨rfl, rfl, rfl, rfl⟩

theorem stopReader_stopped (why : Reason) (s : State) : (stopReader why s).reader.state = .stopped := by
  unfold stopReader
  split
  · next still =>
    simp only [Bool.and_eq_true, decide_eq_true_eq] at still
    exact still.1
  · exact (readerStop_reader why s).1

theorem carry_stopped (why : Reason) (s : State) : (carry why s).reader.state = .stopped := stopReader_stopped ..

/-! ### An abort -/

/-- Settles O12, from what the stop of every head leaves. -/
theorem abortStopsHeadsAndReader : Obligations.AbortStopsHeadsAndReader := by
  intro s run together device
  have acts : exec (.abort run) s = finish (abortNow s) := by
    show finish (match s.control.device with
      | .running | .stopping => abortNow s
      | .stopped | .starting | .estop | .setupErr | .fault => writeRun run s) = _
    rcases device with d | d <;> simp [d]
  refine .of_finish acts fun t e => ?_
  let a := modControl (fun c => { c with run := false, aborting := true }) s
  have together' : GangsAligned a := together
  have frame := (carry_worked (P := fun _ => True) .abortCmd a).frame
  have kept : StopKept a t := (carry_kept .abortCmd a).trans e.stopKept
  have stopped : headsStopped .abortCmd a t := (carry_headsStopped .abortCmd together').of_ended e
  refine ⟨?_, ?_, ?_, ?_, kept.claims, kept.tools, kept.inputs, stopped,
    fun x o waiting => (carry_closingBare .abortCmd (s := a) together' waiting).of_ended e, headsStopped_done stopped⟩
  · rw [e.control]; exact frame.run
  · rw [e.control]; exact frame.aborting
  · rw [e.control]; exact frame.device
  · rw [e.reader]; exact carry_stopped ..

/-! ### ESTOP -/

theorem setDevice_flagged {e : Event} (d : DeviceState) {s : State} (set : flagged e s) : flagged e (setDevice d s) := by
  by_cases same : s.control.device = d
  · rw [setDevice, if_pos same]; exact set
  · rw [flagged, setDevice_control same]
    exact flagged_raise_of e .runst (s := modControl (fun c => { c with device := d }) s) set

/-- A change of the device state leaves every lasting request at the bus. -/
theorem setDevice_writes {a : Access} {offset : Nat} {data : List Byte} (d : DeviceState) {s : State}
    (lasting : a.lasting = true) (asked : writes a offset data s) : writes a offset data (setDevice d s) := by
  unfold setDevice
  split
  · exact asked
  · exact Confined.writes (us := []) (s := modControl (fun c => { c with device := d }) s)
      ((raise_worked (P := fun _ => True) ..).trans (requestPart_worked ..)).frame lasting asked

theorem setDevice_heads (d : DeviceState) (s : State) : (setDevice d s).heads = s.heads := by
  obtain ⟨c, b, r, e⟩ := setDevice_touches d s
  rw [e]

theorem setDevice_senses (d : DeviceState) (s : State) : (setDevice d s).senses = s.senses := by
  obtain ⟨c, b, r, e⟩ := setDevice_touches d s
  rw [e]

/-- What a stop has left stays when only run control moves on: heads and flags stand, and so do requests that
last. -/
structure StopStands (s t : State) : Prop where
  heads : t.heads = s.heads
  senses : t.senses = s.senses
  flags : ∀ e, flagged e s → flagged e t
  writes : ∀ x offset data, writes (.outcomeWrite x) offset data s → writes (.outcomeWrite x) offset data t

theorem StopStands.refl (s : State) : StopStands s s := ⟨rfl, rfl, fun _ => id, fun _ _ _ => id⟩

theorem StopStands.trans {s t u : State} (a : StopStands s t) (b : StopStands t u) : StopStands s u :=
  ⟨b.heads.trans a.heads, b.senses.trans a.senses, fun e f => b.flags e (a.flags e f),
    fun x o d w => b.writes x o d (a.writes x o d w)⟩

theorem setDevice_stands (d : DeviceState) (s : State) : StopStands s (setDevice d s) :=
  ⟨setDevice_heads d s, setDevice_senses d s, fun _ => setDevice_flagged d,
    fun _ _ _ => setDevice_writes d (by simp [Access.lasting, Access.readerRead, Access.ofPrep])⟩

theorem modControl_stands {f : Control → Control} {s : State} (evt : (f s.control).evt = s.control.evt)
    (area : (f s.control).area = s.control.area) : StopStands s (modControl f s) where
  heads := rfl
  senses := rfl
  flags := fun e set => by rw [flagged, modControl_control, evt]; exact set
  writes := fun x offset data ⟨r, hr, ha, hd, rest⟩ => ⟨r, hr, ha, by
    rw [hd, State.busAddr, State.busAddr, modControl_control, area], rest⟩

theorem StopStands.head {s t : State} (a : StopStands s t) (k : HeadId) : t.head k = s.head k :=
  congrArg (Four.get · k) a.heads

theorem headsStopped.of_stands {why : Reason} {s u t : State} (stopped : headsStopped why s u) (a : StopStands u t) :
    headsStopped why s t := by
  intro h
  obtain ⟨moving, halted, other⟩ := stopped h
  refine ⟨fun m => ⟨fun k hk => ?_, a.flags _ (moving m).2⟩, fun m => (a.head h).trans (halted m), fun m n => ?_⟩
  · rw [a.head, State.sense, a.senses]; exact (moving m).1 k hk
  · rw [a.head]; exact other m n

theorem closingBare.of_stands {x : HeadId} {o : Order} {outcome : OrderOutcome} {reason : Reason} {u t : State}
    (closing : closingBare x o outcome reason u) (a : StopStands u t) : closingBare x o outcome reason t := by
  obtain ⟨fixed, noted, asked⟩ := closing
  exact ⟨by rw [a.head]; exact fixed, by rw [a.head]; exact noted, a.writes _ _ _ asked⟩

theorem estopNoted_stands (s : State) : StopStands s (estopNoted s) := by
  unfold estopNoted
  split
  · exact modControl_stands (by exact rfl) (by exact rfl)
  · exact .refl s
  all_goals exact (modControl_stands (by exact rfl) (by exact rfl)).trans (setDevice_stands ..)

theorem estopNoted_control (s : State) : (estopNoted s).control.run = s.control.run ∧
    if s.control.device = .starting then (estopNoted s).control.device = .starting ∧ (estopNoted s).control.startEstop = true
    else (estopNoted s).control.device = .estop := by
  unfold estopNoted
  split
  · next d => rw [if_pos d]; exact ⟨rfl, d, rfl⟩
  · next d => rw [if_neg (by rw [d]; decide)]; exact ⟨rfl, d⟩
  all_goals
    next d =>
      rw [if_neg (by rw [d]; decide)]
      exact ⟨setDevice_run .estop (modControl (fun c => { c with aborting := false }) s), setDevice_device ..⟩

/-- What ESTOP leaves, once it has been noted that it is active (R137, R175). -/
theorem enterEstop_stops {a t : State} (together : GangsAligned a) (raised : flagged .safe a)
    (e : Ended (enterEstop a) t) :
    StopKept a t ∧ flagged .safe t ∧ t.control.run = a.control.run ∧
      (if a.control.device = .starting then t.control.device = .starting ∧ t.control.startEstop = true
        else t.control.device = .estop) ∧
      t.reader.state = .stopped ∧ headsStopped .estop a t ∧
      ∀ x o, openOrder a x o → closingBare x o .stopped .estop t := by
  have frame := (carry_worked (P := fun _ => True) .estop a).frame
  have stands : StopStands (carry .estop a) (enterEstop a) := estopNoted_stands _
  have stopped := carry_headsStopped .estop together
  have reader : (enterEstop a).reader = (carry .estop a).reader := by
    obtain ⟨_, _, _, same⟩ := enterEstop_touches a
    rw [same]
  have made : enterEstop a = estopNoted (carry .estop a) := rfl
  obtain ⟨run, device⟩ := estopNoted_control (carry .estop a)
  rw [← made] at run device
  rw [frame.device] at device
  rw [frame.run] at run
  refine ⟨((carry_kept .estop a).trans (enterEstop_touches a).reader.kept).trans e.stopKept,
    e.flagged (stands.flags _ (frame.flagged raised)), by rw [e.control]; exact run, by rw [e.control]; exact device,
    by rw [e.reader, reader]; exact carry_stopped .estop a, (stopped.of_stands stands).of_ended e,
    fun x o waiting => ((carry_closingBare .estop together waiting).of_stands stands).of_ended e⟩

/-- Settles O19. -/
theorem estopStopsThePress : Obligations.EstopStopsThePress := by
  intro s together inactive
  have acts : exec .estopAssert s = finish (enterEstop (raise .safe (setEstop true s))) := by
    show finish (if s.estopActive = true then s else _) = _
    rw [inactive]
    rfl
  refine .of_finish acts fun t e => ?_
  obtain ⟨kept, safe, run, device, reader, stopped, closing⟩ :=
    enterEstop_stops (a := raise .safe (setEstop true s)) together (flagged_raise ..) e
  obtain ⟨n, raised⟩ := control_raise (setEstop true s).control .safe
  rw [raise_control, raised] at run device
  exact ⟨by rw [State.estopActive, kept.inputs]; rfl, safe, run, device, reader, kept.claims, kept.tools, stopped,
    closing, headsStopped_done stopped⟩

end Sys2Proof.Machine

/-! ### RUN written 0 in RUNNING -/

namespace Sys2Proof.Machine

theorem atRest_not_before {st : HeadState} (rest : st.atRest = true) : st.beforeStroke = false := (settled_safe (.inr rest)).2

/-- No head of a unit stands before its stroke once the unit has been stopped there. -/
theorem stopUnitIdle_done {x k : HeadId} {s : State} (together : GangsAligned s) (mine : k ∈ s.unit x) :
    ((stopUnitIdle x s).head k).state.beforeStroke = false := by
  unfold stopUnitIdle
  split
  · rw [state_stopBefore _ _ _ _ mine]
    exact atRest_not_before (restState_atRest s k)
  · next out =>
    rw [state_of_mem_unit together mine]
    simpa using out

/-- A device stop at every unit reaches each as it stands. -/
theorem stopUnitsIdle_at {s : State} {x : HeadId} (together : GangsAligned s) (leads : s.leads x = true) :
    ∃ t, (∀ k ∈ s.unit x, sameAt k s t) ∧ GangsAligned t ∧
      Worked (fun _ => False) HeadId.all (stopUnitIdle x t) (eachLead stopUnitIdle s) ∧
      ∀ k ∈ s.unit x, sameAt k (stopUnitIdle x t) (eachLead stopUnitIdle s) := by
  obtain ⟨t, _, same, aligned, w, after⟩ := eachLead_at (P := fun _ => False) (f := stopUnitIdle) together leads
    (fun t h _ _ => stopUnitIdle_worked (List.Subset.refl _)) (by
      intro t k u aligned _ mem _ same _
      have done := stopUnitIdle_done aligned mem
      rw [← same] at done
      simp [stopUnitIdle, done])
  exact ⟨t, same, aligned, w, after⟩

/-- An open order before its stroke is written STOPPED, DEVICE_STOP. -/
theorem stopUnitsIdle_closingBare {s : State} {x : HeadId} {o : Order} (together : GangsAligned s)
    (waiting : openOrder s x o) : closingBare x o .stopped .deviceStop (eachLead stopUnitIdle s) := by
  obtain ⟨leads, before, order, unfixed, intact⟩ := waiting
  obtain ⟨t, same, _, w, after⟩ := stopUnitsIdle_at together leads
  have headx : t.head x = s.head x := (same x (mem_unit_self s x)).1
  have own := (after x (mem_unit_self s x)).1
  have stops : stopUnitIdle x t = stopBefore .deviceStop t.restState x t := by
    simp [stopUnitIdle, headx, before]
  rw [stops] at w own
  exact (closingBare_stopBefore .deviceStop (restState_atRest t) (headx.symm ▸ order) (headx.symm ▸ unfixed)
    (headx.symm ▸ intact)).of_frame w.frame (by rw [own]) (by rw [own])

/-- A head before its stroke comes to rest, every other stays as it is. -/
theorem stopUnitsIdle_head {s : State} (together : GangsAligned s) (h : HeadId) :
    ((s.head h).state.beforeStroke = true → ((eachLead stopUnitIdle s).head h).state.atRest = true) ∧
      ((s.head h).state.beforeStroke = false → (eachLead stopUnitIdle s).head h = s.head h) := by
  have mem := mem_unit_lead together h
  obtain ⟨t, same, aligned, _, after⟩ := stopUnitsIdle_at together (leads_lead s h)
  have headx := (same _ (mem_unit_self s (s.lead h))).1
  have unit : t.unit (s.lead h) = s.unit (s.lead h) := unit_congr (congrArg Head.gang headx)
  have statex : (t.head (s.lead h)).state = (s.head h).state := by rw [headx, state_lead together h]
  rw [(after h mem).1, stopUnitIdle, statex]
  constructor
  · intro before
    rw [if_pos before, state_stopBefore _ _ _ _ (unit.symm ▸ mem)]
    exact restState_atRest t h
  · intro out
    rw [if_neg (by simp [out]), (same h mem).1]

theorem openOrder.of_head {s t : State} {x : HeadId} {o : Order} (waiting : openOrder s x o)
    (same : t.head x = s.head x) : openOrder t x o := by
  obtain ⟨leads, rest⟩ := waiting
  refine ⟨?_, ?_⟩
  · rw [leads_iff, same]; exact leads_iff.mp leads
  · rw [same]; exact rest

theorem StopTouched.reader {s t : State} (touched : StopTouched s t) : t.reader = s.reader := by
  obtain ⟨_, _, _, _, _, _, _, rfl⟩ := touched
  exact Eq.refl _

theorem ReaderTouched.heads {s t : State} (touched : ReaderTouched s t) : t.heads = s.heads := by
  obtain ⟨_, _, _, _, rfl⟩ := touched
  exact Eq.refl _

/-- A running device that is stopped (R173). -/
theorem beginStopping_stops {s t : State} (together : GangsAligned s) (running : s.control.device = .running)
    (e : Ended (beginStopping s) t) :
    t.control.run = s.control.run ∧ t.control.device = .stopping ∧ flagged .runst t ∧ t.reader.state = .stopped ∧
      (s.reader.state ≠ .stopped →
        t.reader.heldSlot = none ∧ t.reader.poll = none ∧ t.reader.pendingNudge = false) ∧
      StopKept s t ∧ (∀ x o, openOrder s x o → closingBare x o .stopped .deviceStop t) ∧
      ∀ h, ((s.head h).state.beforeStroke = true → (t.head h).state.atRest = true) ∧
        ((s.head h).state.beforeStroke = false → t.head h = s.head h) := by
  have entered : flagged .runst (setDevice .stopping s) := setDevice_runst (by rw [running]; decide)
  have device : (setDevice .stopping s).control.device = .stopping := setDevice_device ..
  have run := setDevice_run .stopping s
  have reader : (setDevice .stopping s).reader = s.reader := by
    obtain ⟨_, _, _, e⟩ := setDevice_touches .stopping s
    rw [e]
  have touched : ReaderTouched s (stopReader .deviceStop (setDevice .stopping s)) :=
    (setDevice_touches ..).reader.trans (stopReader_touches ..)
  have stopped := stopReader_stopped .deviceStop (setDevice .stopping s)
  have emptied : s.reader.state ≠ .stopped →
      (stopReader .deviceStop (setDevice .stopping s)).reader.heldSlot = none ∧
      (stopReader .deviceStop (setDevice .stopping s)).reader.poll = none ∧
      (stopReader .deviceStop (setDevice .stopping s)).reader.pendingNudge = false := by
    intro other
    rw [stopReader, if_neg (by simp [reader, other])]
    exact (readerStop_reader ..).2
  have frame := (stopReader_worked (P := fun _ => True) (us := HeadId.all) .deviceStop (setDevice .stopping s)).frame.trans
    (eachLead_worked (P := fun _ => True) (f := stopUnitIdle) _ fun _ _ => stopUnitIdle_worked (subset_all _)).frame
  have stop := eachLead_stop stopUnitIdle_stop (stopReader .deviceStop (setDevice .stopping s))
  have made : beginStopping s = eachLead stopUnitIdle (stopReader .deviceStop (setDevice .stopping s)) := rfl
  rw [made] at e
  generalize setDevice .stopping s = d at *
  generalize stopReader .deviceStop d = a at *
  have heads : ∀ h, a.head h = s.head h := fun h => congrArg (Four.get · h) touched.heads
  have together' : GangsAligned a := fun h => by simpa only [heads] using together h
  refine ⟨by rw [e.control, frame.run, run], by rw [e.control, frame.device, device], e.flagged (frame.flagged entered),
    by rw [e.reader, stop.reader, stopped], fun other => by rw [e.reader, stop.reader]; exact emptied other,
    (touched.kept.trans stop.kept).trans e.stopKept, fun x o waiting => ?_, fun h => ?_⟩
  · exact (stopUnitsIdle_closingBare together' (waiting.of_head (heads x))).of_ended e
  · have left := stopUnitsIdle_head together' h
    rw [heads] at left
    rw [e.head]
    exact left

/-- Settles O11. -/
theorem runZeroStopsARunningDevice : Obligations.RunZeroStopsARunningDevice := by
  intro s together running going
  have stops : writeRun false s = beginStopping (runCleared s) := by
    unfold writeRun
    extract_lets c
    change _ = beginStopping c
    have device : c.control.device = .running := running
    have aborts : c.control.aborting = false := going
    simp [device, aborts]
  refine .of_finish (congrArg finish stops) fun t e => ?_
  obtain ⟨run, device, flag, reader, emptied, kept, closing, heads⟩ :=
    beginStopping_stops (s := runCleared s) together running e
  exact ⟨run, device, flag, reader, emptied, kept.tools, kept.claims, kept.inputs, closing, heads⟩

end Sys2Proof.Machine

/-! ### The ends of ESTOP, of a stop and of a fault -/

namespace Sys2Proof.Machine

/-- Each operation of a round changes the state of its own head by `g`, wherever `I` holds; so the round changes
those of the list. -/
theorem state_eachHead {I : State → Prop} {f : HeadId → State → State} {g : HeadId → HeadState → HeadState}
    (keeps : ∀ h s, I s → I (f h s))
    (one : ∀ h s k, I s → ((f h s).head k).state = if k = h then g h (s.head h).state else (s.head k).state) :
    ∀ (hs : List HeadId) (s : State), hs.Nodup → I s → ∀ k,
      ((eachHead f hs s).head k).state = if k ∈ hs then g k (s.head k).state else (s.head k).state
  | [], s, _, _, k => by simp [eachHead]
  | h :: hs, s, nd, holds, k => by
    obtain ⟨fresh, nd⟩ := List.nodup_cons.mp nd
    rw [eachHead, state_eachHead keeps one hs _ nd (keeps h s holds) k, one h s k holds]
    by_cases own : k = h
    · subst own
      simp [fresh]
    · simp [own]

/-- A head that rests is no half of a gang. -/
theorem gang_of_atRest {s : State} (together : GangsAligned s) {h : HeadId} (rest : (s.head h).state.atRest = true) :
    (s.head h).gang = false := by
  cases g : (s.head h).gang
  · rfl
  · rw [(together h g).2.2.2] at rest; cases rest

theorem sleepHead_state (h : HeadId) {s : State} (k : HeadId) (together : GangsAligned s) :
    ((sleepHead h s).head k).state =
      if k = h then (if (s.head h).state = .idle then .offline else (s.head h).state) else (s.head k).state := by
  unfold sleepHead
  by_cases idle : (s.head h).state = .idle
  · have unit := unit_single (gang_of_atRest together (h := h) (by rw [idle]; rfl))
    rw [if_pos idle, if_pos idle, head_goRest, unit]
    simp only [List.mem_singleton]
    split <;> rfl
  · rw [if_neg idle, if_neg idle]
    split
    · next e => rw [e]
    · rfl

/-- Heads in IDLE go to OFFLINE, the others stay (R173). -/
theorem sleepHeads_state {s : State} (together : GangsAligned s) (k : HeadId) :
    ((eachHead sleepHead HeadId.all s).head k).state =
      if (s.head k).state = .idle then .offline else (s.head k).state := by
  rw [state_eachHead (I := GangsAligned) (g := fun _ st => if st = .idle then .offline else st)
    (fun h s g => (sleepHead_worked (P := fun _ => False) (List.Subset.refl (s.unit h))).walk.aligned g)
    (fun h s k g => sleepHead_state h k g) HeadId.all s (by decide) together k, if_pos k.mem_all]

theorem sleepHead_press (h : HeadId) (s : State) : PressTouched s (sleepHead h s) := by
  unfold sleepHead
  split
  · exact goRest_press ..
  · exact .rfl

theorem sleepHead_closing (h : HeadId) (s : State) (k : HeadId) :
    ((sleepHead h s).head k).closing = (s.head k).closing := by
  unfold sleepHead
  split
  · rw [head_goRest]
    split <;> rfl
  · rfl

theorem sleepHeads_closing (s : State) (k : HeadId) :
    ((eachHead sleepHead HeadId.all s).head k).closing = (s.head k).closing :=
  eachHead_keeps (P := fun t => (t.head k).closing = (s.head k).closing)
    (fun h t same => (sleepHead_closing h t k).trans same) HeadId.all s rfl

/-- What a stop's end touches: the tools, the board, the reader and the inputs stand. -/
theorem PressTouched.stands {s t : State} (touched : PressTouched s t) :
    sameTools s t ∧ sameBoard s t ∧ t.reader = s.reader ∧ t.inputs = s.inputs := by
  obtain ⟨_, _, _, _, _, _, e⟩ := touched
  rw [e]
  exact ⟨⟨Eq.refl _, Eq.refl _⟩, ⟨Eq.refl _, Eq.refl _, Eq.refl _⟩, Eq.refl _, Eq.refl _⟩

/-- The device in STOPPED at the end of a stop, before a RUN at 1 acts. -/
def stopEnded (s : State) : State :=
  eachHead sleepHead HeadId.all
    (setDevice .stopped (modControl (fun c => { c with aborting := false, staleRun := false }) s))

theorem enterStopped_eq (s : State) : enterStopped s = startIfDue (stopEnded s) := by rfl

theorem stopEnded_touches (s : State) : PressTouched s (stopEnded s) :=
  ((modControl_touches _ s).trans (setDevice_touches ..)).press.trans (eachHead_press sleepHead_press _ _)

theorem stopEnded_control {s : State} (out : s.control.device ≠ .stopped) :
    (∃ g n, (stopEnded s).control =
      { s.control with device := .stopped, aborting := false, staleRun := false, evt := g, msiSent := n }) ∧
      flagged .runst (stopEnded s) := by
  have frame := (Worked.eachHead (P := fun _ => True) (us := HeadId.all) (f := sleepHead) HeadId.all
    (setDevice .stopped (modControl (fun c => { c with aborting := false, staleRun := false }) s))
    fun _ _ _ => sleepHead_worked (subset_all _)).frame
  have entered : flagged .runst (setDevice .stopped
      (modControl (fun c => { c with aborting := false, staleRun := false }) s)) := setDevice_runst out
  obtain ⟨g, n, kept⟩ := setDevice_kept .stopped (modControl (fun c => { c with aborting := false, staleRun := false }) s)
  obtain ⟨f, m, e⟩ := frame.control
  exact ⟨⟨g ||| f, m, by rw [stopEnded, e, kept]; rfl⟩, frame.flagged entered⟩

theorem stopDone_out {s : State} (done : s.stopDone = true) : s.control.device ≠ .stopped := by
  simp only [State.stopDone, Bool.and_eq_true, Bool.or_eq_true, decide_eq_true_eq] at done
  rcases done.1.1 with e | e
  · simp [e]
  · simp [e.1]

theorem stopEnded_state {s : State} (together : GangsAligned s) (k : HeadId) : ((stopEnded s).head k).state =
    if (s.head k).state = .idle then .offline else (s.head k).state := by
  have heads := setDevice_heads .stopped (modControl (fun c => { c with aborting := false, staleRun := false }) s)
  have head : ∀ k, (setDevice .stopped (modControl (fun c => { c with aborting := false, staleRun := false }) s)).head k =
      s.head k := fun k => congrArg (Four.get · k) heads
  rw [stopEnded, sleepHeads_state (fun h => by simpa only [head] using together h), head]

theorem stopEnded_writing (s : State) : (stopEnded s).anyWriting = s.anyWriting := by
  have heads := setDevice_heads .stopped (modControl (fun c => { c with aborting := false, staleRun := false }) s)
  have closing : ∀ k, ((stopEnded s).head k).closing = (s.head k).closing := fun k => by
    rw [stopEnded, sleepHeads_closing]
    exact congrArg (fun m => (Four.get m k).closing) heads
  simp only [State.anyWriting, Head.writing, closing]

/-- ESTOP released (R138, R175). -/
theorem estopRelease_ends {a t : State} (safe : flagged .safe a) (inactive : a.estopActive = false)
    (e : Ended (estopExit a) t) :
    t.estopActive = false ∧ flagged .safe t ∧
      t.control.device = (if a.control.device = .estop ∧ a.control.run = false then .stopped else a.control.device) ∧
      sameBlocks a t := by
  have exit : estopExit a =
      if a.control.device = .estop ∧ a.control.run = false then setDevice .stopped a else a := by
    simp only [estopExit, inactive]
    simp
  have level : (estopExit a).estopActive = false := by
    rw [exit]
    split
    · exact (setDevice_estopActive ..).trans inactive
    · exact inactive
  have blocks : sameBlocks a (estopExit a) := by
    rw [exit]
    split
    · exact setDevice_sameBlocks ..
    · exact ⟨⟨rfl, rfl, rfl⟩, ⟨rfl, rfl⟩, ⟨rfl, rfl, rfl⟩, rfl, rfl, rfl⟩
  refine ⟨(congrArg (·.estop.level) e.inputs).trans level, e.flagged ?_, ?_, blocks.trans e.sameBlocks⟩
  · rw [exit]
    split
    · exact setDevice_flagged _ safe
    · exact safe
  · rw [e.control, exit]
    split
    · exact setDevice_device ..
    · rfl

/-- A stop that has ended, with RUN at 0 or with an outcome still being written. -/
theorem stopEnded_ends {s t : State} (together : GangsAligned s) (done : s.stopDone = true) (e : Ended (stopEnded s) t) :
    t.control.device = .stopped ∧ t.control.aborting = false ∧ t.control.run = s.control.run ∧ flagged .runst t ∧
      (∀ h, (t.head h).state = if (s.head h).state = .idle then .offline else (s.head h).state) ∧
      sameTools s t ∧ sameBoard s t ∧ t.reader = s.reader ∧ t.inputs = s.inputs := by
  obtain ⟨⟨g, n, control⟩, flag⟩ := stopEnded_control (stopDone_out done)
  obtain ⟨tools, board, reader, inputs⟩ := (stopEnded_touches s).stands
  exact ⟨by rw [e.control, control], by rw [e.control, control], by rw [e.control, control], e.flagged flag,
    fun h => by rw [e.head, stopEnded_state together], ⟨e.tools.trans tools.1, e.toolBus.trans tools.2⟩,
    ⟨e.claims.trans board.1, e.claimMsgs.trans board.2.1, e.grants.trans board.2.2⟩, e.reader.trans reader,
    e.inputs.trans inputs⟩

theorem exec_stopComplete {s : State} (done : s.stopDone = true) :
    exec .stopComplete s = finish (startIfDue (stopEnded s)) := by
  show finish (if s.stopDone = true then enterStopped s else s) = _
  rw [if_pos done, enterStopped_eq]

theorem stopEnded_startDue {s : State} (done : s.stopDone = true) :
    (stopEnded s).startDue = (s.control.run && !s.anyWriting) := by
  obtain ⟨⟨g, n, control⟩, _⟩ := stopEnded_control (stopDone_out done)
  simp [State.startDue, control, stopEnded_writing]

/-- Settles O20. -/
theorem endsOfEstopStopAndFault : Obligations.EndsOfEstopStopAndFault := by
  refine ⟨fun s active => ?_, fun s together run => ⟨fun done => ?_, fun fault quiet => ?_⟩, fun s together run done => ?_⟩
  · have acts : exec .estopRelease s = finish (estopExit (raise .safe (setEstop false s))) := by
      show finish (if s.estopActive = true then _ else s) = _
      rw [if_pos active]
    refine .of_finish acts fun t e => ?_
    obtain ⟨n, raised⟩ := control_raise (setEstop false s).control .safe
    obtain ⟨level, safe, device, heads, tools, board, reader, _, _⟩ :=
      estopRelease_ends (a := raise .safe (setEstop false s)) (flagged_raise ..) rfl e
    rw [raise_control, raised] at device
    exact ⟨level, safe, device, heads, tools, board, reader⟩
  · have acts : exec .stopComplete s = finish (stopEnded s) := by
      rw [exec_stopComplete done, startIfDue, stopEnded_startDue done, run]
      rfl
    refine .of_finish acts fun t e => ?_
    obtain ⟨device, aborting, _, flag, heads, stands⟩ := stopEnded_ends together done e
    exact ⟨device, aborting, flag, heads, stands⟩
  · have acts : exec .faultExit s = finish (setDevice .stopped s) := by
      show finish (if (decide (s.control.device = .fault) && !s.control.run && s.faultQuiet) = true then _ else s) = _
      rw [fault, run, quiet]
      rfl
    exact .of_finish acts fun t e => ⟨by rw [e.control, setDevice_device],
      e.flagged (setDevice_runst (by rw [fault]; decide)), (setDevice_sameBlocks ..).trans e.sameBlocks⟩
  · cases writing : s.anyWriting
    · have acts : exec .stopComplete s = finish (startNow (stopEnded s)) := by
        rw [exec_stopComplete done, startIfDue, stopEnded_startDue done, run, writing]
        rfl
      obtain ⟨⟨g, n, control⟩, _⟩ := stopEnded_control (stopDone_out done)
      obtain ⟨tools, board, _, inputs⟩ := (stopEnded_touches s).stands
      refine .of_finish acts fun t e => ?_
      obtain ⟨run', device, error, base, flag, read, heads, tools', board', inputs', _, _⟩ :=
        startNow_begun (by rw [control]) (by rw [control]; exact run) e
      have area : (stopEnded s).control.abaseH ++ (stopEnded s).control.abaseL = s.control.abaseH ++ s.control.abaseL := by
        rw [control]
      rw [area] at base read
      refine ⟨run', ?_, flag, fun busy => by simp at busy, fun _ => ⟨device, error, base, read⟩, fun h => ?_,
        ⟨tools'.1.trans tools.1, tools'.2.trans tools.2⟩,
        ⟨board'.1.trans board.1, board'.2.1.trans board.2.1, board'.2.2.trans board.2.2⟩, inputs'.trans inputs⟩
      · rw [e.control, startNow_aborting, control]
      · rw [show t.head h = (stopEnded s).head h from congrArg (Four.get · h) heads.1, stopEnded_state together]
    · have acts : exec .stopComplete s = finish (stopEnded s) := by
        rw [exec_stopComplete done, startIfDue, stopEnded_startDue done, writing, Bool.not_true, Bool.and_false]
        rfl
      refine .of_finish acts fun t e => ?_
      obtain ⟨device, aborting, run', flag, heads, tools, board, reader, inputs⟩ := stopEnded_ends together done e
      exact ⟨run'.trans run, aborting, flag, fun _ => ⟨device, reader⟩, fun idle => by simp at idle, heads, tools, board,
        inputs⟩

end Sys2Proof.Machine

/-! ### The end of a start (R141, R172, R175, R177) -/

namespace Sys2Proof.Machine

theorem estopExit_kept (s : State) : ∃ d g n, (estopExit s).control = { s.control with device := d, evt := g, msiSent := n } := by
  unfold estopExit
  split
  · exact ⟨_, setDevice_kept ..⟩
  · exact ⟨s.control.device, s.control.evt, s.control.msiSent, rfl⟩

theorem estopExit_flagged {e : Event} {s : State} (set : flagged e s) : flagged e (estopExit s) := by
  unfold estopExit
  split
  · exact setDevice_flagged _ set
  · exact set

theorem estopExit_sameBlocks (s : State) : sameBlocks s (estopExit s) := by
  unfold estopExit
  split
  · exact setDevice_sameBlocks ..
  · exact ⟨⟨rfl, rfl, rfl⟩, ⟨rfl, rfl⟩, ⟨rfl, rfl, rfl⟩, rfl, rfl, rfl⟩

/-- Run control forgets what met the start. -/
def startForgotten (s : State) : State :=
  modControl (fun c => { c with startEstop := false, startGivenUp := false, staleRun := c.run }) s

theorem abandonStart_eq (s : State) : abandonStart s =
    if s.control.startEstop then estopExit (setDevice .estop (startForgotten s))
    else setDevice .stopped (startForgotten s) := by rfl

theorem startForgotten_sameBlocks (s : State) : sameBlocks s (startForgotten s) :=
  ⟨⟨rfl, rfl, rfl⟩, ⟨rfl, rfl⟩, ⟨rfl, rfl, rfl⟩, rfl, rfl, rfl⟩

/-- What a start given up leaves (R172, R175). -/
theorem abandonStart_abandoned {s t : State} (starting : s.control.device = .starting)
    (e : Ended (abandonStart s) t) : startAbandoned s t := by
  have device := abandonStart_device s
  have rest : (∃ d g n, (abandonStart s).control =
      { (startForgotten s).control with device := d, evt := g, msiSent := n }) ∧ flagged .runst (abandonStart s) ∧
      sameBlocks s (abandonStart s) := by
    rw [abandonStart_eq]
    split
    · obtain ⟨_, _, kept⟩ := setDevice_kept .estop (startForgotten s)
      obtain ⟨d, g, n, exit⟩ := estopExit_kept (setDevice .estop (startForgotten s))
      exact ⟨⟨d, g, n, by rw [exit, kept]⟩,
        estopExit_flagged (setDevice_runst (by rw [show (startForgotten s).control.device = _ from starting]; decide)),
        ((startForgotten_sameBlocks s).trans (setDevice_sameBlocks ..)).trans (estopExit_sameBlocks _)⟩
    · obtain ⟨g, n, kept⟩ := setDevice_kept .stopped (startForgotten s)
      exact ⟨⟨_, g, n, kept⟩, setDevice_runst (by rw [show (startForgotten s).control.device = _ from starting]; decide),
        (startForgotten_sameBlocks s).trans (setDevice_sameBlocks ..)⟩
  obtain ⟨⟨d, g, n, control⟩, flag, blocks⟩ := rest
  refine ⟨by rw [e.control, device], e.flagged flag, ?_, ?_, ?_, ?_, ?_, ?_, ?_, blocks.trans e.sameBlocks⟩ <;>
    rw [e.control, control] <;> rfl

/-! ### The setup check -/

/-- One check of a list, told by the condition that fails it. -/
theorem firstFailing_step {α : Type} {ok : Bool} {fails : Prop} [Decidable fails] {a : α} {rest : List (Bool × α)}
    {found : Option α} (check : ok = true ↔ ¬fails) (others : firstFailing rest = found) :
    firstFailing ((ok, a) :: rest) = if fails then some a else found := by
  rw [firstFailing, others]
  by_cases f : fails
  · rw [if_pos f, if_neg (mt check.mp (not_not.mpr f))]
  · rw [if_neg f, if_pos (check.mpr f)]

/-- The checks of R141 in the order of the table. -/
theorem firstFailing_setupChecks (d : List Byte) : firstFailing (setupChecks d) = setupRefusal d := by
  unfold setupChecks setupRefusal setupFields
  dsimp only
  repeat' first | exact rfl | refine firstFailing_step ?_ ?_
  all_goals simp only [fits, inRange, Bool.and_eq_true, decide_eq_true_eq]; omega

theorem getLsbD_ofByte {w : Nat} (b : Byte) {i : Nat} (small : i < w) : (BitVec.ofNat w b.toNat).getLsbD i = b.getLsbD i := by
  simp [small, BitVec.getLsbD]

theorem setupFields_copies (d : List Byte) : copiesSetup d (setupFields d) := by
  refine ⟨by simp [setupFields], fun h => getLsbD_ofByte _ (by cases h <;> decide), rfl, rfl, rfl,
    fun i => getLsbD_ofByte _ i.isLt, fun i => getLsbD_ofByte _ i.isLt, rfl, rfl, rfl, rfl, rfl, rfl, rfl, rfl, rfl, rfl, rfl,
    rfl, rfl, rfl, fun h => ?_⟩
  cases h <;> exact ⟨rfl, rfl⟩

theorem checkSetup_error {data : Option (List Byte)} {code : Byte}
    (bad : data = none ∧ code = 0x01#8 ∨ ∃ d, data = some d ∧ setupRefusal d = some code) :
    checkSetup data = .error code := by
  rcases bad with ⟨rfl, rfl⟩ | ⟨d, rfl, refused⟩
  · rfl
  · simp [checkSetup, firstFailing_setupChecks, refused]

theorem checkSetup_ok {d : List Byte} (passes : setupRefusal d = none) : checkSetup (some d) = .ok (setupFields d) := by
  simp [checkSetup, firstFailing_setupChecks, passes]

theorem setupErr_found {s t : State} (starting : s.control.device = .starting) (code : Byte)
    (e : Ended (setDevice .setupErr (modControl (fun c => { c with setupError := code }) s)) t) :
    t.control.device = .setupErr ∧ t.control.setupError = code ∧ flagged .runst t ∧
      t.control.setup = s.control.setup ∧ t.control.area = s.control.area ∧ sameBlocks s t := by
  have blocks := (setDevice_sameBlocks .setupErr (modControl (fun c => { c with setupError := code }) s)).trans e.sameBlocks
  have flag : flagged .runst (setDevice .setupErr (modControl (fun c => { c with setupError := code }) s)) :=
    setDevice_runst (by rw [modControl_control]; simp [starting])
  obtain ⟨g, n, kept⟩ := setDevice_kept .setupErr (modControl (fun c => { c with setupError := code }) s)
  rw [e.control, kept]
  exact ⟨rfl, rfl, e.flagged flag, rfl, rfl, blocks⟩

theorem adoptSetup_adopts {s t : State} (starting : s.control.device = .starting) (c : Setup)
    (e : Ended (adoptSetup c s) t) :
    t.control.device = .starting ∧ t.control.setup = some c ∧
      t.control.area = some { base := s.control.startBase, size := c.areaSize } ∧
      t.reader = { Reader.reset with anchor := c.lead, expectedTurn := !c.initialTurn, nextAge := s.reader.nextAge } ∧
      (∀ h, t.sense h = (s.sense h).deviceStart) ∧
      (∃ r ∈ t.bus, r.access = .headerAll ∧ r.fate = .live ∧ r.addr = s.control.startBase + 0) ∧
      t.heads = s.heads ∧ sameTools s t ∧ sameBoard s t ∧ t.inputs = s.inputs := by
  obtain ⟨q, hq, ha, hd, hf, _⟩ := e.kept _ (List.mem_append_right _ (List.mem_singleton.mpr rfl))
  refine ⟨by rw [e.control]; exact starting, by rw [e.control]; rfl, by rw [e.control]; rfl, by rw [e.reader]; rfl,
    fun h => ?_, ⟨q, hq, ha, hf, hd⟩, e.heads, ⟨e.tools, e.toolBus⟩, ⟨e.claims, e.claimMsgs, e.grants⟩, e.inputs⟩
  rw [e.sense]
  exact Four.get_map ..

/-- Settles O22. -/
theorem setupReadDecidesTheStart : Obligations.SetupReadDecidesTheStart := by
  refine ⟨fun s data flight starting lost => ?_, fun s data flight starting going =>
    ⟨fun code bad => ?_, fun d read passes => ?_⟩⟩ <;> obtain ⟨rest, run⟩ := onComplete_live flight <;>
    have starting' : (s.withBus rest).control.device = .starting := starting
  · have found : setupFound data (s.withBus rest) = abandonStart (s.withBus rest) := by
      have lost' : (s.withBus rest).startLost = true := lost
      simp [setupFound, starting', lost']
    exact .of_finish (congrArg finish ((run _).trans found)) fun t e =>
      abandonStart_abandoned (s := s.withBus rest) starting' e
  · have going' : (s.withBus rest).startLost = false := going
    have found : setupFound data (s.withBus rest) =
        setDevice .setupErr (modControl (fun c => { c with setupError := code }) (s.withBus rest)) := by
      simp [setupFound, starting', going', checkSetup_error bad]
    exact .of_finish (congrArg finish ((run _).trans found)) fun t e =>
      setupErr_found (s := s.withBus rest) starting' code e
  · have going' : (s.withBus rest).startLost = false := going
    have found : setupFound data (s.withBus rest) = adoptSetup (setupFields d) (s.withBus rest) := by
      simp [setupFound, starting', going', read, checkSetup_ok passes]
    refine .of_finish (congrArg finish ((run _).trans found)) fun t e => ?_
    obtain ⟨device, setup, area, reader, senses, header, heads, tools, board, inputs⟩ :=
      adoptSetup_adopts (s := s.withBus rest) starting' _ e
    refine ⟨setupFields d, setupFields_copies d, device, setup, area, by rw [reader], by rw [reader], by rw [reader]; rfl,
      by rw [reader]; rfl, by rw [reader]; rfl, by rw [reader]; rfl, fun h ch hch => ?_, fun h => ?_, header, heads, tools,
      board, inputs⟩
    · rw [senses] at hch
      obtain ⟨ch', _, rfl⟩ := List.mem_map.mp hch
      exact ⟨rfl, rfl⟩
    · rw [senses]
      exact ⟨rfl, rfl⟩

end Sys2Proof.Machine

/-! ### The entry to RUNNING (R50, R98, R142, R172) -/

namespace Sys2Proof.Machine

/-- What every operation of a round sets for its own head, and keeps for the others, holds after the round for the
heads of the list. -/
theorem eachHead_sets {I : State → Prop} {Q : HeadId → State → Prop} {f : HeadId → State → State}
    (stays : ∀ h s, I s → I (f h s)) (sets : ∀ h s, I s → Q h (f h s))
    (keeps : ∀ h k s, k ≠ h → I s → Q k s → Q k (f h s)) (hs : List HeadId) {s : State} (holds : I s) {k : HeadId}
    (mem : k ∈ hs) : Q k (eachHead f hs s) := by
  induction hs generalizing s with
  | nil => cases mem
  | cons h hs ih =>
    rcases List.mem_cons.mp mem with own | later
    · have one : ∀ j t, I t ∧ Q k t → I (f j t) ∧ Q k (f j t) := fun j t ⟨i, q⟩ => ⟨stays j t i, by
        by_cases own : k = j
        · rw [own]; exact sets j t i
        · exact keeps j k t own i q⟩
      exact (eachHead_keeps (P := fun t => I t ∧ Q k t) one hs (f h s) ⟨stays h s holds, by
        rw [own]; exact sets h s holds⟩).2
    · exact ih (stays h s holds) later

theorem changeTool_tools (h : HeadId) (f : Tool → Tool) (s : State) :
    (changeTool h f s).tools = s.tools.set h (f (s.tool h)) := by
  unfold changeTool
  dsimp only
  split
  · obtain ⟨b, r, e⟩ := requestPart_touches (.live h) (raise .tool (modTool h (fun _ => f (s.tool h)) s))
    rw [e]
    rfl
  · rfl

/-- What the tool bus controller's look at one head does (R98). -/
def lookedTool (s : State) (h : HeadId) : Tool :=
  if s.toolPresent h then Tool.restart (s.identifyOnBus h) (s.tool h) else Tool.startAbsent (s.tool h)

theorem lookPresent_tools (h : HeadId) (s : State) : (lookPresent h s).tools = s.tools.set h (lookedTool s h) := by
  unfold lookPresent lookedTool
  split
  · dsimp only
    split <;> exact changeTool_tools ..
  · exact changeTool_tools ..

/-- `t` is `s` but for the tools, the tool bus, the flags raised and requests at the bus. -/
structure Looked (s t : State) : Prop where
  heads : t.heads = s.heads
  reader : t.reader = s.reader
  inputs : t.inputs = s.inputs
  claims : t.claims = s.claims
  control : ∃ f k, t.control = { s.control with evt := s.control.evt ||| f, msiSent := k }

theorem Looked.refl (s : State) : Looked s s := ⟨rfl, rfl, rfl, rfl, 0, s.control.msiSent, by simp⟩

theorem Looked.trans {s t u : State} (a : Looked s t) (b : Looked t u) : Looked s u := by
  obtain ⟨f, j, ea⟩ := a.control
  obtain ⟨g, k, eb⟩ := b.control
  exact ⟨b.heads.trans a.heads, b.reader.trans a.reader, b.inputs.trans a.inputs, b.claims.trans a.claims, f ||| g, k, by
    rw [eb, ea]; simp [BitVec.or_assoc]⟩

theorem changeTool_looked (h : HeadId) (f : Tool → Tool) (s : State) : Looked s (changeTool h f s) := by
  have frame := (changeTool_worked (P := fun _ => True) h.mem_all f s).frame
  refine ⟨?_, ?_, frame.inputs, frame.claims, frame.control⟩
  · unfold changeTool
    dsimp only
    split
    · exact requestPart_heads (.live h) (raise .tool (modTool h (fun _ => f (s.tool h)) s))
    · rfl
  · unfold changeTool
    dsimp only
    split
    · obtain ⟨b, r, e⟩ := requestPart_touches (.live h) (raise .tool (modTool h (fun _ => f (s.tool h)) s))
      rw [e]
      rfl
    · rfl

theorem lookPresent_looked (h : HeadId) (s : State) : Looked s (lookPresent h s) := by
  unfold lookPresent
  split
  · have one := changeTool_looked h (Tool.restart (s.identifyOnBus h)) s
    dsimp only
    split
    · exact ⟨one.heads, one.reader, one.inputs, one.claims, one.control⟩
    · exact one
  · exact changeTool_looked ..

theorem lookPresents_looked (hs : List HeadId) (s : State) : Looked s (eachHead lookPresent hs s) :=
  eachHead_relates Looked.refl (fun _ _ _ => .trans) lookPresent_looked hs s

/-- What a device start makes of a head's tool: identified anew where one is present (R98, R172). -/
def toolStarted (h : HeadId) (t : State) : Prop :=
  (t.tool h).state = (if t.toolPresent h then .identify else .absent) ∧ (t.tool h).toolType = 0 ∧ (t.tool h).tines = 0

theorem restart_started (onBus : Bool) (w : Tool) :
    (w.restart onBus).state = .identify ∧ (w.restart onBus).toolType = 0 ∧ (w.restart onBus).tines = 0 := by
  unfold Tool.restart
  split
  · exact ⟨rfl, rfl, rfl⟩
  · split <;> exact ⟨rfl, rfl, rfl⟩
  · exact ⟨rfl, rfl, rfl⟩

theorem lookPresents_started (s : State) (h : HeadId) : toolStarted h (eachHead lookPresent HeadId.all s) := by
  refine eachHead_sets (I := fun _ => True) (Q := toolStarted) (fun _ _ => id) (fun h s _ => ?_)
    (fun h k s other _ started => ?_) HeadId.all trivial h.mem_all
  · have present : (lookPresent h s).toolPresent h = s.toolPresent h := by
      simp only [State.toolPresent, (lookPresent_looked h s).inputs]
    rw [toolStarted, present, State.tool, lookPresent_tools, Four.get_set_same, lookedTool]
    split
    · exact restart_started ..
    · exact ⟨rfl, rfl, rfl⟩
  · have present : (lookPresent h s).toolPresent k = s.toolPresent k := by
      simp only [State.toolPresent, (lookPresent_looked h s).inputs]
    rw [toolStarted, present, State.tool, lookPresent_tools, Four.get_set_other _ _ other]
    exact started

/-! Requests that stay at the bus -/

theorem requestPart_grows (p : HeaderPart) (s : State) : s.bus ⊆ (requestPart p s).bus := by
  unfold requestPart
  split
  · exact fun _ h => h
  · split
    · exact List.subset_append_left ..
    · split <;> exact fun _ h => h

theorem putState_grows (st : HeadState) (h : HeadId) (s : State) : s.bus ⊆ (putState st h s).bus := by
  unfold putState
  split
  · exact fun _ h => h
  · exact requestPart_grows (.live h) (modHead h (fun x => { x with state := st }) s)

/-- A unit that comes to rest gives up the requests of its preparation alone. -/
theorem goRest_keeps_request (st : HeadId → HeadState) (x : HeadId) {s : State} {q : BusReq}
    (other : q.access.ofPrep x = false) (present : q ∈ s.bus) : q ∈ (goRest st x s).bus :=
  eachHead_keeps (P := fun t => q ∈ t.bus) (f := fun h => restHead (st h) h)
    (fun h t mem => putState_grows (st h) h (setPlan h .empty t) mem) _ _
    (mem_dropRequests other present)

theorem wakeHead_keeps_request (h : HeadId) {s : State} {q : BusReq} (other : q.access.ofPrep h = false)
    (present : q ∈ s.bus) : q ∈ (wakeHead h s).bus := by
  unfold wakeHead
  split
  · exact goRest_keeps_request _ h other present
  · exact present

/-! Heads that wake -/

theorem wakeHead_press (h : HeadId) (s : State) : PressTouched s (wakeHead h s) := by
  unfold wakeHead
  split
  · exact goRest_press ..
  · exact .rfl

theorem wakeHead_state (h : HeadId) {s : State} (k : HeadId) (together : GangsAligned s) :
    ((wakeHead h s).head k).state = if k = h then
      (if (s.head h).state = .offline ∧ s.setup.enabled h then .idle else (s.head h).state) else (s.head k).state := by
  unfold wakeHead
  by_cases off : (s.head h).state = .offline ∧ s.setup.enabled h = true
  · have unit := unit_single (gang_of_atRest together (h := h) (by rw [off.1]; rfl))
    rw [if_pos off, if_pos (by simpa using off.symm), head_goRest, unit]
    simp only [List.mem_singleton]
    split <;> rfl
  · rw [if_neg off, if_neg (by simpa [and_comm] using off)]
    split
    · next e => rw [e]
    · rfl

/-- Every enabled head in OFFLINE enters IDLE (R50). -/
theorem wakeHeads_state {s : State} (together : GangsAligned s) (k : HeadId) :
    ((eachHead wakeHead HeadId.all s).head k).state =
      if (s.head k).state = .offline ∧ s.setup.enabled k then .idle else (s.head k).state := by
  have woken := fun (h : HeadId) (t : State) => wakeHead_worked (P := fun _ => False) (List.Subset.refl (t.unit h))
  rw [state_eachHead (I := fun t => GangsAligned t ∧ t.setup = s.setup)
    (g := fun h st => if st = .offline ∧ s.setup.enabled h then .idle else st)
    (fun h t ⟨g, c⟩ => ⟨(woken h t).walk.aligned g, (woken h t).frame.setup.trans c⟩)
    (fun h t k ⟨g, c⟩ => by rw [wakeHead_state h k g, c]) HeadId.all s (by decide) ⟨together, rfl⟩ k, if_pos k.mem_all]

/-- The device running, its tools and the chain's first link asked for, before heads wake. -/
def runningBegun (s : State) : State := readerRun (eachHead lookPresent HeadId.all (setDevice .running s))

theorem enterRunning_eq (s : State) : enterRunning s = eachHead wakeHead HeadId.all (runningBegun s) := by rfl

theorem runningBegun_spec {s : State} (starting : s.control.device = .starting) :
    (runningBegun s).control.device = .running ∧ flagged .runst (runningBegun s) ∧
      (runningBegun s).reader.state = .reading ∧ (runningBegun s).reader.op = .link ∧
      reads .linkRead s.reader.anchor 4 (runningBegun s) ∧ (runningBegun s).heads = s.heads ∧
      (runningBegun s).setup = s.setup ∧ (∀ h, toolStarted h (runningBegun s)) ∧
      (runningBegun s).claims = s.claims ∧ (runningBegun s).inputs = s.inputs := by
  have entered : flagged .runst (setDevice .running s) := setDevice_runst (by rw [starting]; decide)
  obtain ⟨g, n, kept⟩ := setDevice_kept .running s
  obtain ⟨c, b, r, made⟩ := setDevice_touches .running s
  have looked := lookPresents_looked HeadId.all (setDevice .running s)
  have started := lookPresents_started (setDevice .running s)
  obtain ⟨f, k, control⟩ := looked.control
  unfold runningBegun
  generalize eachHead lookPresent HeadId.all (setDevice .running s) = l at *
  have same := (readerRun_worked (P := fun _ => True) (us := []) l).frame
  obtain ⟨b', r', reader⟩ := changeReader_eq (fun r => { r with state := .reading }) l
  have run : readerRun l = requestRead .linkRead (changeReader (fun r => { r with state := .reading }) l).reader.anchor 4
      (modReader (fun r => { r with op := .link }) (changeReader (fun r => { r with state := .reading }) l)) := rfl
  have anchor : (changeReader (fun r => { r with state := .reading }) l).reader.anchor = s.reader.anchor := by
    rw [reader, looked.reader, made]
  have heads : (readerRun l).heads = l.heads := by rw [run, reader]; rfl
  have tools : (readerRun l).tools = l.tools := by rw [run, reader]; rfl
  refine ⟨by rw [same.device, control, kept], same.flagged ?_, by rw [run, reader]; rfl, by rw [run, reader]; rfl, ?_,
    by rw [heads, looked.heads, setDevice_heads], ?_, fun h => ?_, by rw [same.claims, looked.claims, made],
    by rw [same.inputs, looked.inputs, made]⟩
  · rw [flagged, control]
    rw [flagged] at entered
    rw [BitVec.and_comm] at entered ⊢
    rw [BitVec.and_or_distrib_left, entered]
    ext i
    simpa using fun e _ => e
  · rw [run, anchor]
    exact reads_requestRead ..
  · rw [same.setup, State.setup, control, kept]
    rfl
  · rw [toolStarted, State.tool, tools, State.toolPresent, same.inputs]
    exact started h

/-- Settles O23. -/
theorem headerWrittenStartsRunning : Obligations.HeaderWrittenStartsRunning := by
  refine ⟨fun s flight starting lost => ?_, fun s together flight starting going => ?_⟩ <;>
    obtain ⟨rest, run⟩ := onComplete_live flight <;>
    have starting' : (s.withBus rest).control.device = .starting := starting
  · have found : startHeaderWritten (s.withBus rest) = abandonStart (s.withBus rest) := by
      have lost' : (s.withBus rest).startLost = true := lost
      simp [startHeaderWritten, starting', lost']
    exact .of_finish (congrArg finish ((run _).trans found)) fun t e =>
      abandonStart_abandoned (s := s.withBus rest) starting' e
  · have found : startHeaderWritten (s.withBus rest) = eachHead wakeHead HeadId.all (runningBegun (s.withBus rest)) := by
      have going' : (s.withBus rest).startLost = false := going
      simp [startHeaderWritten, starting', going', enterRunning_eq]
    refine .of_finish (congrArg finish ((run _).trans found)) fun t e => ?_
    obtain ⟨device, flag, reading, op, link, heads, setup, tools, claims, inputs⟩ := runningBegun_spec starting'
    have together' : GangsAligned (runningBegun (s.withBus rest)) := fun h => by
      simp only [State.head, heads]
      exact together h
    have states := wakeHeads_state together'
    generalize runningBegun (s.withBus rest) = a at *
    have woken := (Worked.eachHead (P := fun _ => True) (us := HeadId.all) (f := wakeHead) HeadId.all a
      fun _ _ _ => wakeHead_worked (subset_all _)).frame
    obtain ⟨stools, board, reader, _⟩ := (eachHead_press wakeHead_press HeadId.all a).stands
    refine ⟨by rw [e.control, woken.device, device], e.flagged (woken.flagged flag), by rw [e.reader, reader, reading],
      by rw [e.reader, reader, op], e.reads (by simp) (by simp) ?_, fun h => ?_, fun h => ?_,
      by rw [e.claims, board.1, claims]; rfl, by rw [e.inputs, woken.inputs, inputs]; rfl⟩
    · obtain ⟨q, hq, access, addr, rest⟩ := link
      refine ⟨q, ?_, access, by rw [addr, woken.busAddr]; rfl, rest⟩
      exact eachHead_keeps (P := fun t => q ∈ t.bus)
        (fun h t mem => wakeHead_keeps_request h (by rw [access]; rfl) mem) _ _ hq
    · rw [e.head, states, State.head, heads, setup]
      rfl
    · obtain ⟨state, type, tines⟩ := tools h
      rw [State.toolPresent, inputs] at state
      rw [e.tool, State.tool, stools.1]
      exact ⟨state, type, tines⟩

end Sys2Proof.Machine

/-! ## A write error (R176)

A stop asks for no access of a start; so a device fault, which gives up those there are, leaves none. -/

namespace Sys2Proof.Machine

/-- No live access of a start is at the bus. -/
def startless (s : State) : Prop := ∀ q ∈ s.bus, q.access.ofStart = true → q.fate ≠ .live

theorem startless_request {a : Access} (other : a.ofStart = false) (addr : BitVec 64) (len : Nat) (data : List Byte) {s : State}
    (none : startless s) : startless (request a addr len data s) := by
  intro q hq start
  rcases List.mem_append.mp hq with old | new
  · exact none q old start
  · rw [List.mem_singleton.mp new, other] at start
    cases start

theorem startless_drop (mine : Access → Bool) {s : State} (none : startless s) : startless (dropRequests mine s) := by
  intro q hq start live
  obtain ⟨p, hp, rfl⟩ := List.mem_map.mp hq
  split at start
  · next given =>
    rw [if_pos given] at live
    cases live
  · next kept =>
    rw [if_neg kept] at live
    exact none p (List.mem_filter.mp hp).1 start live

/-- The accesses of a start given up. -/
theorem startless_dropStart (s : State) : startless (dropRequests Access.ofStart s) := by
  intro q hq start live
  obtain ⟨p, hp, rfl⟩ := List.mem_map.mp hq
  split at start
  · next given =>
    rw [if_pos given] at live
    cases live
  · next kept =>
    rw [if_neg kept] at live
    exact kept (by simp [start, live])

theorem startless_requestPart (p : HeaderPart) {s : State} (none : startless s) : startless (requestPart p s) := by
  unfold requestPart
  split
  · exact none
  · split
    · exact startless_request rfl _ _ _ none
    · split <;> exact none

theorem startless_setDevice (d : DeviceState) {s : State} (none : startless s) : startless (setDevice d s) := by
  unfold setDevice
  split
  · exact none
  · exact startless_requestPart .device (s := raise .runst (modControl _ s)) none

theorem startless_putState (st : HeadState) (h : HeadId) {s : State} (none : startless s) : startless (putState st h s) := by
  unfold putState
  split
  · exact none
  · exact startless_requestPart (.live h) (s := modHead h _ s) none

theorem startless_putHaltReason (why : Reason) (h : HeadId) {s : State} (none : startless s) :
    startless (putHaltReason why h s) := by
  unfold putHaltReason
  split
  · exact none
  · exact startless_requestPart (.live h) (s := modHead h _ s) none

theorem startless_eachHead {f : HeadId → State → State} (one : ∀ h s, startless s → startless (f h s)) (hs : List HeadId)
    {s : State} (none : startless s) : startless (eachHead f hs s) :=
  eachHead_keeps (P := startless) one hs s none

theorem startless_changeReader (f : Reader → Reader) {s : State} (none : startless s) : startless (changeReader f s) :=
  startless_requestPart .chain (s := modReader f s) none

theorem startless_goRest (st : HeadId → HeadState) (x : HeadId) {s : State} (none : startless s) :
    startless (goRest st x s) :=
  startless_eachHead (f := fun h => restHead (st h) h) (fun h t n => startless_putState (st h) h (s := setPlan h .empty t) n) _
    (startless_drop (Access.ofPrep x) none)

theorem startless_putFields (x : HeadId) (c : Closing) {s : State} (none : startless s) : startless (putFields x c s) :=
  startless_request rfl _ _ _ (s := setClosing x _ s) none

theorem startless_putEntry (i : Nat) (x : HeadId) (c : Closing) {s : State} (none : startless s) :
    startless (putEntry i x c s) := by
  unfold putEntry
  split
  · unfold putRows
    dsimp only
    split
    · exact startless_putFields x c none
    · exact startless_request rfl _ _ _ (s := setClosing x _ s) none
  · exact startless_request rfl _ _ _ (s := setClosing x _ s) none

theorem startless_beginClosing (x : HeadId) (c : Closing) {s : State} (none : startless s) : startless (beginClosing x c s) := by
  unfold beginClosing
  dsimp only
  split
  · exact startless_putFields x c (s := modHead x _ s) none
  · split
    · exact startless_putEntry 0 x c (s := modHead x _ s) none
    · exact none

theorem startless_closeBefore (outcome : OrderOutcome) (reason : Reason) (x : HeadId) {s : State} (none : startless s) :
    startless (closeBefore outcome reason x s) := by
  unfold closeBefore
  dsimp only
  split
  · exact none
  · split
    · exact none
    · exact startless_beginClosing x _ none

theorem startless_endWork (x : HeadId) {s : State} (none : startless s) : startless (endWork x s) := by
  unfold endWork
  extract_lets a b c d
  have hb : startless b := startless_eachHead (f := fun h => modSense h Sense.abandonTare) (fun h t n => n) _
    (startless_drop (Access.ofPrep x) none)
  have hc : startless c := by
    dsimp only [c]
    split <;> exact hb
  have hd : startless d := by
    dsimp only [d]
    unfold letGo
    dsimp only
    split <;> exact hc
  exact hd

theorem startless_stopBefore (reason : Reason) (st : HeadId → HeadState) (x : HeadId) {s : State} (none : startless s) :
    startless (stopBefore reason st x s) :=
  startless_goRest st x (startless_closeBefore .stopped reason x (startless_endWork x none))

theorem startless_haltPlan (why : Reason) (x : HeadId) {s : State} (none : startless s) : startless (haltPlan why x s) := by
  unfold haltPlan
  (repeat' split) <;> exact none

theorem startless_haltContact (x : HeadId) {s : State} (none : startless s) : startless (haltContact x s) := by
  unfold haltContact
  split <;> exact none

theorem startless_haltOutcome (why : Reason) (x : HeadId) {s : State} (none : startless s) :
    startless (haltOutcome why x s) := by
  unfold haltOutcome
  dsimp only
  split
  · exact none
  · split
    · exact none
    · split
      · exact startless_beginClosing x _ none
      · split
        · exact none
        · exact startless_eachHead (f := fun h => modHead h fun m => { m with current := .none }) (fun h t n => n) _ none

theorem startless_haltUnit (why : Reason) (x : HeadId) {s : State} (none : startless s) : startless (haltUnit why x s) := by
  have told := startless_haltPlan why x (startless_haltContact x none)
  have halted := startless_eachHead (f := haltHead why)
    (fun h t n => startless_putState .halted h (startless_putHaltReason why h n)) (s.unit x) told
  exact startless_haltOutcome why x (s := raise .halt _) halted

theorem startless_stopUnit (why : Reason) (x : HeadId) {s : State} (none : startless s) : startless (stopUnit why x s) := by
  unfold stopUnit
  dsimp only
  split
  · exact startless_haltUnit why x none
  · split
    · exact startless_stopBefore why _ x none
    · split
      · exact startless_goRest _ x none
      · exact none

theorem startless_stopAdvance {s : State} (none : startless s) : startless (stopAdvance s) := by
  unfold stopAdvance
  split
  · split
    · exact startless_request rfl _ _ _ (s := modReader _ s) none
    · exact startless_changeReader _ none
  · exact none

theorem startless_stopReader (why : Reason) {s : State} (none : startless s) : startless (stopReader why s) := by
  unfold stopReader
  split
  · exact none
  · exact startless_stopAdvance (startless_changeReader _ (startless_drop Access.readerRead none))

theorem startless_carry (why : Reason) {s : State} (none : startless s) : startless (carry why s) :=
  startless_stopReader why (startless_eachHead (fun h t n => by
    split
    · exact startless_stopUnit why h n
    · exact n) HeadId.all none)

/-- A grant changes neither what a request is for nor its fate. -/
theorem startless.of_ended {u t : State} (none : startless u) (e : Ended u t) : startless t := by
  intro q hq start
  obtain ⟨p, hp, same⟩ := List.mem_map.mp (e.keys.mem_iff.mp (List.mem_map_of_mem hq))
  simp only [BusReq.key, Prod.mk.injEq] at same
  obtain ⟨access, _, fate⟩ := same
  rw [← fate]
  exact none p hp (access ▸ start)

/-! ### The block whose write failed -/

/-- A sequencer whose order is given up because a write failed. -/
def Head.failed (m : Head) : Head := { m with closing := none, writeFailed := true }

/-- What a failed write touches: the reader, and the writing of one head. -/
theorem writeLost_parts (r : BusReq) (s : State) :
    ∃ m q b v, writeLost r s = { s with heads := m, reader := q, bus := b, rewrite := v } ∧
      ∀ k, m.get k = s.head k ∨ m.get k = (s.head k).failed := by
  have reader : ∀ f, ∃ m q b v, changeReader f s = { s with heads := m, reader := q, bus := b, rewrite := v } ∧
      ∀ k, m.get k = s.head k ∨ m.get k = (s.head k).failed := fun f => by
    obtain ⟨b, v, e⟩ := changeReader_eq f s
    exact ⟨s.heads, _, b, v, e, fun _ => .inl rfl⟩
  have failed : ∀ h, ∃ m q b v, failOrder h s = { s with heads := m, reader := q, bus := b, rewrite := v } ∧
      ∀ k, m.get k = s.head k ∨ m.get k = (s.head k).failed := fun h =>
    ⟨_, s.reader, _, s.rewrite, rfl, fun k => by
      rw [Four.get_set]
      split
      · next e => rw [e]; exact .inr rfl
      · exact .inl rfl⟩
  have same : ∃ m q b v, s = { s with heads := m, reader := q, bus := b, rewrite := v } ∧
      ∀ k, m.get k = s.head k ∨ m.get k = (s.head k).failed :=
    ⟨s.heads, s.reader, s.bus, s.rewrite, rfl, fun _ => .inl rfl⟩
  unfold writeLost
  split
  · exact ⟨s.heads, s.reader, s.bus, _, rfl, fun _ => .inl rfl⟩
  · split
    · exact ⟨s.heads, _, s.bus, s.rewrite, rfl, fun _ => .inl rfl⟩
    · exact same
  · split
    · exact ⟨s.heads, _, s.bus, s.rewrite, rfl, fun _ => .inl rfl⟩
    · exact same
  · split
    · split
      · exact reader _
      · exact reader _
      · exact same
    · exact same
  · exact failed _
  · exact failed _
  · exact failed _
  all_goals exact same

/-! ### The device fault itself -/

theorem faultEntered_heads (s : State) : (faultEntered s).heads = s.heads := by
  obtain ⟨_, _, _, e⟩ := faultEntered_touches s
  rw [e]

theorem faultEntered_runst {s : State} (other : s.control.device ≠ .fault) : flagged .runst (faultEntered s) :=
  setDevice_runst (s := modControl _ (dropRequests Access.ofStart s)) other

theorem faultEntered_startless (s : State) : startless (faultEntered s) :=
  startless_setDevice .fault (s := modControl _ (dropRequests Access.ofStart s)) (startless_dropStart s)

theorem faultLeft_touches (s : State) : ControlTouched s (faultLeft s) := by
  unfold faultLeft
  split
  · exact abandonStart_touches s
  · exact modControl_touches ..

theorem deviceFault_kept (s : State) : StopKept s (deviceFault s) := by
  by_cases out : s.control.device = .fault ∨ s.control.device = .estop
  · rw [deviceFault_of_out out]
    exact ⟨rfl, ⟨rfl, rfl⟩, rfl⟩
  · rw [not_or] at out
    rw [deviceFault_of_in out.1 out.2]
    exact ((faultEntered_touches s).reader.kept.trans (carry_kept .fault _)).trans (faultLeft_touches _).reader.kept

/-- What a device fault leaves where ESTOP has not met a start (R68 to R70, R176). -/
theorem deviceFault_stops {s t : State} (together : GangsAligned s) (fault : s.control.device ≠ .fault)
    (estop : s.control.device ≠ .estop) (unmet : s.control.startEstop = false)
    (e : Ended (stopAdvance (deviceFault s)) t) :
    t.control.device = .fault ∧ flagged .runst t ∧ t.reader.state = .stopped ∧ headsStopped .fault s t ∧ startless t := by
  have entered : (faultEntered s).control.device = .fault := setDevice_device ..
  have runst := faultEntered_runst fault
  have none := faultEntered_startless s
  have heads := faultEntered_heads s
  have noted := faultEntered_startEstop s
  rw [deviceFault_of_in fault estop] at e
  generalize faultEntered s = a at *
  have together' : GangsAligned a := fun h => by
    simp only [State.head, heads]
    exact together h
  have frame := (carry_worked (P := fun _ => True) .fault a).frame
  have stopped := carry_headsStopped .fault together'
  have reader := carry_stopped .fault a
  have carried := startless_carry .fault none
  have device := frame.device.trans entered
  have flag := frame.flagged runst
  have unmet' : (carry .fault a).control.startEstop = false := frame.startEstop.trans (noted.trans unmet)
  generalize carry .fault a = c at *
  have left : faultLeft c = modControl (fun c => { c with startGivenUp := false }) c := by
    simp [faultLeft, unmet']
  have stands : StopStands c (faultLeft c) := by
    rw [left]; exact modControl_stands (by exact rfl) (by exact rfl)
  have advance := (stopAdvance_worked (P := fun _ => True) (us := []) (faultLeft c)).frame
  have same := advance.others
  obtain ⟨op, stopping, readerSame⟩ := stopAdvance_reader (faultLeft c)
  refine ⟨?_, e.flagged (advance.flagged (stands.flags _ flag)), ?_, ?_, ?_⟩
  · rw [e.control, advance.device, left]; exact device
  · rw [e.reader, readerSame, left]; exact reader
  · have heads' : ∀ h, s.head h = a.head h := fun h => (congrArg (Four.get · h) heads).symm
    have final : headsStopped .fault a (stopAdvance (faultLeft c)) := fun h => by
      obtain ⟨moving, halted, other⟩ := stopped.of_stands stands h
      refine ⟨fun m => ⟨fun k hk => ?_, advance.flagged (moving m).2⟩, fun m => (same h (by simp)).1.trans (halted m),
        fun m n => ?_⟩
      · rw [(same k (by simp)).1, (same k (by simp)).2.1]; exact (moving m).1 k hk
      · rw [(same h (by simp)).1]; exact other m n
    have := final.of_ended e
    intro h
    rw [heads']
    exact this h
  · rw [left] at e
    exact (startless_stopAdvance (s := modControl _ c) carried).of_ended e

/-- Where ESTOP has met a start the fault ends it (R175, R176). -/
theorem deviceFault_met {s : State} (fault : s.control.device ≠ .fault)
    (estop : s.control.device ≠ .estop) (met : s.control.startEstop = true) :
    (deviceFault s).control.device = if s.control.run = false ∧ s.estopActive = false then .stopped else .estop := by
  have noted := faultEntered_startEstop s
  have run : (faultEntered s).control.run = s.control.run := setDevice_run ..
  have level : (faultEntered s).estopActive = s.estopActive := by
    rw [faultEntered, setDevice_estopActive]
    rfl
  rw [deviceFault_of_in fault estop]
  generalize faultEntered s = a at *
  have frame := (carry_worked (P := fun _ => True) .fault a).frame
  have met' : (carry .fault a).control.startEstop = true := frame.startEstop.trans (noted.trans met)
  rw [faultLeft, if_pos met', abandonStart_device, met', frame.run, frame.estopActive, run, level]
  by_cases ended : s.control.run = false ∧ s.estopActive = false <;> simp [ended]

/-- Settles O21. -/
theorem writeErrorIsADeviceFault : Obligations.WriteErrorIsADeviceFault := by
  intro s r rest together bus granted write fate
  have acts : exec .busWriteError s = finish (stopAdvance (deviceFault (writeLost r (s.withBus rest)))) := by
    show finish (match s.bus with
      | [] => s
      | r :: rest =>
        if r.granted && !r.access.isRead then
          if r.fate = .orphaned then s.withBus rest else stopAdvance (deviceFault (writeLost r (s.withBus rest)))
        else s) = _
    rw [bus]
    simp [granted, write, fate]
  obtain ⟨m, q, b, v, lost, heads⟩ := writeLost_parts r (s.withBus rest)
  rw [lost] at acts
  let w : State := { s.withBus rest with heads := m, reader := q, bus := b, rewrite := v }
  have state : ∀ k, (w.head k).state = (s.head k).state ∧ (w.head k).gang = (s.head k).gang ∧
      (w.head k).lastHalt = (s.head k).lastHalt ∧ (w.head k).claim = (s.head k).claim ∧
      (w.head k).contactReached = (s.head k).contactReached := fun k => by
    rcases heads k with same | failed
    · rw [show w.head k = s.head k from same]; exact ⟨rfl, rfl, rfl, rfl, rfl⟩
    · rw [show w.head k = (s.head k).failed from failed]; exact ⟨rfl, rfl, rfl, rfl, rfl⟩
  have together' : GangsAligned w := fun h => by
    simpa only [(state _).1, (state _).2.1] using together h
  refine .of_finish acts fun t e => ?_
  have advance := (stopAdvance_worked (P := fun _ => True) (us := []) (deviceFault w)).frame
  have kept : StopKept w t := ((deviceFault_kept w).trans
    (stopAdvance_touches (deviceFault w)).kept).trans e.stopKept
  refine ⟨fun out => ?_, fun fault estop unmet => ?_, fun fault estop met => ?_, kept.claims, kept.tools, kept.inputs⟩
  · rw [e.control, advance.device, deviceFault_of_out (s := w) out]
    rfl
  · obtain ⟨device, flag, reader, stopped, none⟩ := deviceFault_stops (s := w) together' fault estop unmet e
    refine ⟨device, flag, reader, fun h motion => (stopped h).1 (by rw [(state h).1]; exact motion), fun h halted => ?_,
      fun q hq access => none q hq (by rcases access with e | e <;> rw [e] <;> rfl), headsStopped_done stopped⟩
    obtain ⟨st, _, last, claim, contact⟩ := state h
    rw [(stopped h).2.1 (st.trans halted)]
    exact ⟨st.trans halted, last, claim, contact⟩
  · rw [e.control, advance.device]
    exact deviceFault_met (s := w) fault estop met

end Sys2Proof.Machine

/-! ## NUDGE and HCMD -/

namespace Sys2Proof.Machine

/-! ### NUDGE (R53, R151) -/

theorem nudgeHead_touches (x : HeadId) (s : State) : BusTouched s (nudgeHead x s) := by
  unfold nudgeHead
  split
  · exact .rfl
  · split
    · exact requestRead_touches ..
    · exact .rfl

theorem nudgeHead_grows (x : HeadId) (s : State) : s.bus ⊆ (nudgeHead x s).bus := by
  unfold nudgeHead
  split
  · exact fun _ h => h
  · split
    · exact List.subset_append_left ..
    · exact fun _ h => h

theorem eachLead_touches {f : HeadId → State → State} (one : ∀ h s, BusTouched s (f h s)) (s : State) :
    BusTouched s (eachLead f s) :=
  eachHead_relates (fun _ => .rfl) (fun _ _ _ => .trans) (fun h s => by
    split
    · exact one h s
    · exact .rfl) HeadId.all s

theorem eachLead_grows {f : HeadId → State → State} (one : ∀ h s, s.bus ⊆ (f h s).bus) (s : State) :
    s.bus ⊆ (eachLead f s).bus :=
  eachHead_relates (R := fun s t => s.bus ⊆ t.bus) (fun _ _ h => h) (fun _ _ _ => List.Subset.trans) (fun h s => by
    split
    · exact one h s
    · exact fun _ h => h) HeadId.all s

/-- A request stays asked for while the bus grows and run control stands. -/
theorem reads.of_grows {a : Access} {offset len : Nat} {s t : State} (asked : reads a offset len s) (grows : s.bus ⊆ t.bus)
    (control : t.control = s.control) : reads a offset len t := by
  obtain ⟨q, hq, access, addr, rest⟩ := asked
  exact ⟨q, grows hq, access, by rw [addr, State.busAddr, State.busAddr, control], rest⟩

theorem BusTouched.control_eq {s t : State} (touched : BusTouched s t) : t.control = s.control := by
  obtain ⟨_, _, rfl⟩ := touched
  exact Eq.refl _

/-- Every head before its stroke reads its order's withdraw field. -/
theorem nudgeHeads_read {s : State} {x : HeadId} {o : Order} (leads : s.leads x = true)
    (before : (s.head x).state.beforeStroke = true) (order : (s.head x).current = some o) :
    reads (.nudgeRead x) (withdrawOffset o.record) 1 (eachLead nudgeHead s) := by
  have turn : ∀ h t, BusTouched t (if t.leads h then nudgeHead h t else t) := fun h t => by
    split
    · exact nudgeHead_touches ..
    · exact .rfl
  exact
    (eachHead_sets (I := BusTouched s) (Q := fun k t => k = x → reads (.nudgeRead x) (withdrawOffset o.record) 1 t)
      (fun h t touched => touched.trans (turn h t))
      (fun h t touched own => by
        subst own
        have head : t.head h = s.head h := touched.head h
        have leads' : t.leads h = true := by rw [leads_iff, head]; exact leads_iff.mp leads
        rw [if_pos leads', nudgeHead, head, order]
        simp only [before, if_true]
        exact reads_requestRead ..)
      (fun h k t _ _ asked own => (asked own).of_grows (by
        split
        · exact nudgeHead_grows ..
        · exact fun _ h => h) (turn h t).control_eq)
      HeadId.all .rfl x.mem_all) rfl

/-- A NUDGE that finds the reader WAITING reads the link. -/
theorem readerNudge_waiting {s : State} (waiting : s.reader.state = .waiting) :
    (∃ b r, readerNudge s = { s with reader := nudgedReader s.reader, bus := b, rewrite := r }) ∧
    reads .linkRead s.reader.anchor 4 (readerNudge s) := by
  obtain ⟨b, r, e⟩ := changeReader_eq (fun r => { r with state := .reading, poll := none }) s
  have link : readerNudge s = requestRead .linkRead s.reader.anchor 4 (modReader (fun r => { r with op := .link })
      (changeReader (fun r => { r with state := .reading, poll := none }) s)) := by
    simp only [readerNudge, waiting, requestLink, e]
  have noted : nudgedReader s.reader = { s.reader with state := .reading, poll := none, op := .link } := by
    simp only [nudgedReader, waiting]
  rw [noted, link]
  exact ⟨⟨_, r, by rw [e]; rfl⟩, reads_requestRead ..⟩

/-- What NUDGE does at the reader touches it and the bus. -/
theorem readerNudge_spec (s : State) : (∃ b r, readerNudge s = { s with reader := nudgedReader s.reader, bus := b, rewrite := r }) ∧
    (s.reader.state = .waiting → reads .linkRead s.reader.anchor 4 (readerNudge s)) := by
  have idle : s.reader.state ≠ .waiting → readerNudge s = { s with reader := nudgedReader s.reader } := fun other => by
    cases state : s.reader.state
    case waiting => exact absurd state other
    case reading | held =>
      have noted : nudgedReader s.reader = { s.reader with pendingNudge := true } := by simp only [nudgedReader, state]
      have acts : readerNudge s = modReader (fun r => { r with pendingNudge := true }) s := by simp only [readerNudge, state]
      rw [noted, acts]
      rfl
    case stopped | faulted =>
      have noted : nudgedReader s.reader = s.reader := by simp only [nudgedReader, state]
      have acts : readerNudge s = s := by simp only [readerNudge, state]
      rw [noted, acts]
  by_cases waiting : s.reader.state = .waiting
  · exact ⟨(readerNudge_waiting waiting).1, fun _ => (readerNudge_waiting waiting).2⟩
  · exact ⟨⟨s.bus, s.rewrite, idle waiting⟩, fun yes => absurd yes waiting⟩

/-- Settles O14. -/
theorem nudgeReachesReaderAndHeads : Obligations.NudgeReachesReaderAndHeads := by
  intro s value
  refine .of_finish (u := eachLead nudgeHead (readerNudge s)) rfl fun t e => ?_
  obtain ⟨⟨b, r, nudged⟩, link⟩ := readerNudge_spec s
  have asks := @nudgeHeads_read (readerNudge s)
  have grows := eachLead_grows nudgeHead_grows (readerNudge s)
  obtain ⟨b', r', round⟩ := eachLead_touches nudgeHead_touches (readerNudge s)
  have control : (eachLead nudgeHead (readerNudge s)).control = (readerNudge s).control := by rw [round]
  refine ⟨by rw [e.reader, round, nudged], by rw [e.control, round, nudged],
    ⟨by rw [e.heads, round, nudged], by rw [e.senses, round, nudged], by rw [e.plans, round, nudged]⟩,
    ⟨by rw [e.tools, round, nudged], by rw [e.toolBus, round, nudged]⟩,
    ⟨by rw [e.claims, round, nudged], by rw [e.claimMsgs, round, nudged], by rw [e.grants, round, nudged]⟩,
    by rw [e.inputs, round, nudged], fun waiting => e.reads (by simp) (by simp) ((link waiting).of_grows grows control),
    fun x o leads before order => e.reads (by simp) (by simp) (asks ?_ ?_ ?_)⟩
  · rw [nudged]; exact leads
  · rw [nudged]; exact before
  · rw [nudged]; exact order

/-! ### RELEASE (R72, R73) -/

/-- Settles O17. -/
theorem refusedReleaseChangesOnlyTheCode : Obligations.RefusedReleaseChangesOnlyTheCode := by
  intro s h code first refused
  have judged : s.releaseRefusal (s.lead h) = code := by
    rw [first, State.releaseRefusal, Head.writing]
    simp only [not_or]
  have acts : hcmdRelease h s = modControl (fun c => { c with lastRefusal := code }) s := by
    rw [hcmdRelease, judged, if_neg refused]
    rfl
  exact .of_modControl (congrArg finish acts) fun t control blocks bus => ⟨control, blocks, bus⟩

/-- Each operation of a round changes its own head's sequencer by `g`, wherever `I` holds; so the round changes those
of the list. -/
theorem head_eachHead_when {I : State → Prop} {f : HeadId → State → State} {g : HeadId → Head → Head}
    (keeps : ∀ h s, I s → I (f h s)) (one : ∀ h s, I s → (f h s).heads = s.heads.set h (g h (s.head h))) :
    ∀ (hs : List HeadId) (s : State), hs.Nodup → I s → ∀ k,
      (eachHead f hs s).head k = if k ∈ hs then g k (s.head k) else s.head k
  | [], s, _, _, k => by simp [eachHead]
  | h :: hs, s, nd, holds, k => by
    obtain ⟨fresh, nd⟩ := List.nodup_cons.mp nd
    rw [eachHead, head_eachHead_when keeps one hs _ nd (keeps h s holds) k]
    by_cases own : k = h
    · subst own
      simp [fresh, State.head, one k s holds]
    · simp [own, State.head, one h s holds]

/-- A head that has reached its top holds there. -/
def Head.held (m : Head) : Head := { (m.drive Drive.still).disarm with atTop := true }

theorem head_holdTops (x : HeadId) (s : State) (k : HeadId) : (eachHead holdTop (s.unit x) s).head k =
    if k ∈ s.unit x then (if s.ramTop k then (s.head k).held else s.head k) else s.head k := by
  refine head_eachHead_when (I := fun t => t.inputs = s.inputs) (g := fun h m => if s.ramTop h then m.held else m)
    (fun h t same => ?_) (fun h t same => ?_) (s.unit x) s (unit_nodup s x) rfl k
  · unfold holdTop
    split <;> exact same
  · have top : t.ramTop h = s.ramTop h := by simp only [State.ramTop, same]
    unfold holdTop
    rw [top]
    split
    · rfl
    · exact (Four.set_get ..).symm

/-- The unit risen, before its tops are looked at. -/
def risen (st : HeadState) (x : HeadId) (s : State) : State :=
  let a := armGuards x (enterState st x s)
  eachHead (fun h => modHead h (fun m => { m with atTop := false })) (a.unit x) a

theorem rise_eq (st : HeadState) (x : HeadId) (s : State) : rise st x s = checkTop x (risen st x s) := rfl

/-- One head as its unit enters RETRACT or RECOVER. -/
def Head.raised (st : HeadState) (d : Drive) (interval : Nat) (m : Head) : Head :=
  { ({ m with state := st } : Head).drive d with guardArmed := true, guardCount := interval, atTop := false }

theorem enterState_setup (st : HeadState) (x : HeadId) (s : State) : (enterState st x s).setup = s.setup := by
  have frame := Confined.trans
    (.eachHead (s.unit x) s fun h _ t => putState_frame (us := HeadId.all) h.mem_all st t)
    (setDrive_frame (subset_all ((eachHead (putState st) (s.unit x) s).unit x))
      (driveOf (s.head x).current (s.setup.fullScale.get x) st))
  exact frame.setup

theorem head_risen (st : HeadState) (x : HeadId) (s : State) (k : HeadId) : (risen st x s).head k =
    if k ∈ s.unit x then (s.head k).raised st (driveOf (s.head x).current (s.setup.fullScale.get x) st)
      (s.setup.guardInterval.get k) else s.head k := by
  have entered := head_enterState st x s
  have unit : (enterState st x s).unit x = s.unit x := unit_congr (by rw [entered]; split <;> rfl)
  have armed : ∀ j, (armGuards x (enterState st x s)).head j = if j ∈ s.unit x then
      { (enterState st x s).head j with guardArmed := true, guardCount := s.setup.guardInterval.get j }
      else (enterState st x s).head j := fun j => by
    rw [armGuards, eachHead_modHead (fun h m => { m with guardArmed := true, guardCount := (enterState st x s).setup.guardInterval.get h }) _ _ (unit_nodup _ _), unit, enterState_setup]
  have unit' : (armGuards x (enterState st x s)).unit x = s.unit x :=
    (unit_congr (by rw [armed]; split <;> rfl)).trans unit
  rw [risen, unit', eachHead_modHead (fun _ m => { m with atTop := false }) _ _ (unit' ▸ unit_nodup _ _), armed, entered]
  split <;> rfl

theorem unit_risen (st : HeadState) (x : HeadId) (s : State) : (risen st x s).unit x = s.unit x :=
  unit_congr (by rw [head_risen]; split <;> rfl)

theorem risen_worked {P : HeadState → Prop} {st : HeadState} {x : HeadId} {s : State} (working : st.atRest = false)
    (allowed : P st) : Worked P HeadId.all s (risen st x s) :=
  ((enterState_worked (subset_all _) working (.inr allowed)).trans (armGuards_worked (subset_all _))).trans
    (.eachHead _ _ fun h _ _ => modHead_worked h.mem_all ⟨rfl, rfl, .inl⟩)

/-! ### The tops of a unit (R67, R73, R74) -/

theorem unit_holdTops (x : HeadId) (s : State) : (eachHead holdTop (s.unit x) s).unit x = s.unit x :=
  unit_congr (by rw [head_holdTops]; (repeat' split) <;> rfl)

theorem atTop_holdTops {x : HeadId} {s : State} {k : HeadId} (mine : k ∈ s.unit x) :
    ((eachHead holdTop (s.unit x) s).head k).atTop = (s.ramTop k || (s.head k).atTop) := by
  rw [head_holdTops, if_pos mine]
  cases s.ramTop k <;> rfl

/-- A unit of which a head is not at its top rises on. -/
theorem checkTop_of_below {x : HeadId} {s : State} {k : HeadId} (mine : k ∈ s.unit x) (below : s.ramTop k = false)
    (away : (s.head k).atTop = false) : checkTop x s = eachHead holdTop (s.unit x) s := by
  unfold checkTop
  dsimp only
  rw [unit_holdTops, if_neg]
  intro all
  have top := List.all_eq_true.mp all k mine
  rw [atTop_holdTops mine, below, away] at top
  cases top

theorem checkTop_of_tops {x : HeadId} {s : State} (tops : ∀ k ∈ s.unit x, (s.ramTop k || (s.head k).atTop) = true) :
    checkTop x s = finishTop x (eachHead holdTop (s.unit x) s) := by
  unfold checkTop
  dsimp only
  rw [unit_holdTops, if_pos]
  exact List.all_eq_true.mpr fun k mine => by rw [atTop_holdTops mine]; exact tops k mine

theorem Confined.restState {us : List HeadId} {s t : State} (f : Confined us s t) (k : HeadId) :
    t.restState k = s.restState k := by
  unfold State.restState State.running
  rw [f.setup, f.device, f.aborting]

theorem head_letGo (x : HeadId) (s : State) (k : HeadId) :
    (letGo x s).head k = if k = x then { s.head k with claim := .none } else s.head k := by
  have one : (modHead x (fun m => { m with claim := .none }) s).head k =
      if k = x then { s.head k with claim := .none } else s.head k := by
    by_cases own : k = x
    · subst own; rw [head_modHead_same, if_pos rfl]
    · rw [head_modHead_other own, if_neg own]
  unfold letGo
  dsimp only
  split
  · next none =>
    split
    · next own => rw [own, ← none]
    · rfl
  · exact one
  · exact one

/-- The unit without its claim, its stroke counted where it is one, before it rests. -/
def topDone (x : HeadId) (s : State) : State :=
  if (s.head x).contactReached then eachHead countStroke ((letGo x s).unit x) (letGo x s) else letGo x s

theorem finishTop_eq (x : HeadId) (s : State) : finishTop x s = goRest (topDone x s).restState x (topDone x s) := rfl

theorem changeTool_heads (h : HeadId) (f : Tool → Tool) (s : State) : (changeTool h f s).heads = s.heads :=
  (changeTool_looked h f s).heads

theorem topDone_heads (x : HeadId) (s : State) : (topDone x s).heads = (letGo x s).heads := by
  unfold topDone
  split
  · exact eachHead_keeps (P := fun t => t.heads = (letGo x s).heads)
      (f := countStroke) (fun h t same => (changeTool_heads h Tool.countStroke (modSense h _ t)).trans same) _ _ rfl
  · rfl

theorem topDone_frame (x : HeadId) (s : State) : Confined HeadId.all s (topDone x s) := by
  have go := (letGo_worked (P := fun _ => True) x.mem_all s).frame
  unfold topDone
  split
  · exact go.trans (Worked.eachHead (P := fun _ => True) _ _ fun h _ _ => countStroke_worked h.mem_all _).frame
  · exact go

/-- A unit that has come to its top rests, each head by its own enable bit (R50, R73). -/
theorem head_finishTop {x : HeadId} {s : State} {k : HeadId} (mine : k ∈ s.unit x) : (finishTop x s).head k =
    ({ s.head k with state := s.restState k, claim := if k = x then .none else (s.head k).claim } : Head).rest := by
  have heads : (topDone x s).head k = (letGo x s).head k := congrArg (Four.get · k) (topDone_heads x s)
  have unit : (topDone x s).unit x = s.unit x := unit_congr (by
    rw [show (topDone x s).head x = (letGo x s).head x from congrArg (Four.get · x) (topDone_heads x s), head_letGo]
    split <;> rfl)
  rw [finishTop_eq, head_goRest, unit, if_pos mine, heads, head_letGo, (topDone_frame x s).restState]
  split <;> rfl

/-- A unit entering RETRACT or RECOVER that is not at its top rises there. -/
theorem rise_of_below {st : HeadState} {x : HeadId} {s : State} {j : HeadId} (working : st.atRest = false)
    (mine : j ∈ s.unit x) (below : s.ramTop j = false) {k : HeadId} (hk : k ∈ s.unit x) : (rise st x s).head k =
      if s.ramTop k then ((s.head k).raised st (driveOf (s.head x).current (s.setup.fullScale.get x) st)
        (s.setup.guardInterval.get k)).held
      else (s.head k).raised st (driveOf (s.head x).current (s.setup.fullScale.get x) st)
        (s.setup.guardInterval.get k) := by
  have frame := (risen_worked (P := fun _ => True) (x := x) (s := s) working trivial).frame
  have unit := unit_risen st x s
  rw [rise_eq, checkTop_of_below (k := j) (by rw [unit]; exact mine) (by rw [frame.ramTop]; exact below)
    (by rw [head_risen, if_pos mine]; rfl), head_holdTops, unit, if_pos hk, frame.ramTop, head_risen, if_pos hk]

/-- A unit entering RETRACT or RECOVER at its top comes to rest at once. -/
theorem rise_of_tops {st : HeadState} {x : HeadId} {s : State} (working : st.atRest = false)
    (tops : (s.unit x).all s.ramTop = true) {k : HeadId} (hk : k ∈ s.unit x) :
    ((rise st x s).head k).state = s.restState k ∧ ((rise st x s).head k).still := by
  have frame := (risen_worked (P := fun _ => True) (x := x) (s := s) working trivial).frame
  have unit := unit_risen st x s
  have all := List.all_eq_true.mp tops
  have rests := head_finishTop (x := x) (s := eachHead holdTop ((risen st x s).unit x) (risen st x s)) (k := k)
    (by rw [unit_holdTops, unit]; exact hk)
  have held := (Worked.eachHead (P := fun _ => True) (us := HeadId.all) (f := holdTop) ((risen st x s).unit x) (risen st x s)
    fun h _ t => holdTop_worked h.mem_all t).frame
  rw [held.restState, frame.restState] at rests
  rw [rise_eq, checkTop_of_tops fun j hj => by rw [frame.ramTop, all j (by rwa [unit] at hj)]; rfl, rests]
  exact ⟨rfl, rfl, rfl, rfl⟩

theorem releaseRefusal_of_ready {s : State} {x : HeadId} (estop : s.estopActive = false) (guard : s.guardOpen = false)
    (ready : (s.head x).state = .halted ∧ (s.head x).closing = none ∨
      (s.head x).state.atRest = true ∧ s.ramTop x = false) : s.releaseRefusal x = .none := by
  rcases ready with ⟨halted, idle⟩ | ⟨rest, below⟩
  · simp [State.releaseRefusal, halted, estop, guard, Head.writing, idle]
  · cases e : (s.head x).state
    case idle | offline => simp [State.releaseRefusal, e, estop, guard, below]
    all_goals rw [e] at rest; cases rest

/-- Settles O18. -/
theorem acceptedReleaseRaisesTheRam : Obligations.AcceptedReleaseRaisesTheRam := by
  intro s h together estop guard ready
  have acts : hcmdRelease h s = rise .recover (s.lead h) (setRefusal .none s) := by
    rw [hcmdRelease, releaseRefusal_of_ready estop guard ready, if_pos rfl]
  refine .of_finish (congrArg finish acts) fun t e => ?_
  generalize s.lead h = x at e
  have frame := (rise_worked (P := fun _ => True) (st := .recover) (x := x) (s := setRefusal .none s)
    (subset_all _) rfl trivial).frame
  refine ⟨by rw [e.control, frame.lastRefusal]; rfl, fun away => ⟨e.claims.trans frame.claims, fun k hk => ?_⟩,
    fun tops k hk => ?_⟩
  · obtain ⟨j, mine, below⟩ := List.all_eq_false.mp away
    have head := rise_of_below (s := setRefusal .none s) (st := .recover) (j := j) rfl mine
      (by exact Bool.not_eq_true _ ▸ below) hk
    rw [e.head, head]
    refine ⟨by split <;> rfl, fun under => ?_⟩
    have away : (setRefusal .none s).ramTop k = false := under
    rw [if_neg (by rw [away]; decide)]
    exact ⟨rfl, rfl, rfl, rfl, rfl⟩
  · obtain ⟨state, setpoint, _, brake⟩ := rise_of_tops (s := setRefusal .none s) (st := .recover) rfl tops hk
    rw [e.head]
    exact ⟨state, setpoint, brake⟩

end Sys2Proof.Machine

/-! ## The order chain -/

namespace Sys2Proof.Machine

/-! ### What the reader's operations come to -/

theorem ReaderTouched.sameHeads {s t : State} (touched : ReaderTouched s t) : sameHeads s t := by
  obtain ⟨_, _, _, _, rfl⟩ := touched
  exact ⟨Eq.refl _, Eq.refl _, Eq.refl _⟩

theorem changeReader_reader (f : Reader → Reader) (s : State) : (changeReader f s).reader = f s.reader := by
  obtain ⟨b, r, e⟩ := changeReader_eq f s
  rw [e]

/-- The reader reads at an offset, once it has noted what for. -/
theorem readerReads {a : Access} {offset len : Nat} {f : Reader → Reader} {s t : State}
    (e : Ended (requestRead a offset len (modReader f s)) t) (header : ∀ p, a ≠ .header p) (whole : a ≠ .headerAll) :
    t.reader = f s.reader ∧ reads a offset len t :=
  ⟨e.reader, e.reads header whole (reads_requestRead ..)⟩

/-- The reader writes at an offset, once it has noted what for. -/
theorem readerWrites {a : Access} {offset : Nat} {data : List Byte} {f : Reader → Reader} {s t : State}
    (e : Ended (requestWrite a offset data (modReader f s)) t) (header : ∀ p, a ≠ .header p) (whole : a ≠ .headerAll) :
    t.reader = f s.reader ∧ writes a offset data t :=
  ⟨e.reader, e.writes header whole (writes_requestWrite ..)⟩

/-- A read of the anchor's link asked for by a reader whose anchor is `anchor`. -/
theorem requestLink_reads {s t : State} (e : Ended (requestLink s) t) :
    t.reader = { s.reader with op := .link } ∧ reads .linkRead s.reader.anchor 4 t :=
  readerReads e (by simp) (by simp)

theorem Ended.sameHeads {u t : State} (e : Ended u t) : sameHeads u t := ⟨e.heads, e.senses, e.plans⟩

theorem sameHeads.trans {s t u : State} (a : sameHeads s t) (b : sameHeads t u) : sameHeads s u :=
  ⟨b.1.trans a.1, b.2.1.trans a.2.1, b.2.2.trans a.2.2⟩

/-- A read that ends in FAULTED (R157). -/
theorem readerFault_chainFaulted {why : ChainFault} {s t : State} (e : Ended (readerFault why s) t) :
    chainFaulted why s t := by
  have touched := readerFault_touches why s
  obtain ⟨n, raised⟩ := control_raise s.control .cherr
  refine ⟨e.reader.trans (changeReader_reader ..), e.flagged (flagged_raise ..), ?_, touched.sameHeads.trans e.sameHeads,
    (touched.kept.trans e.stopKept).tools⟩
  rw [e.control, readerFault_control, raised]

/-! ### Links (R143, R150) -/

theorem linkOk_iff (s : State) (link : Nat) : s.reader.linkOk s.setup link = true ↔ ¬badLink s link := by
  have room : fits 64 512 link 128 s.setup.areaSize = true ↔
      ¬(link % 64 ≠ 0 ∨ link < 512 ∨ s.setup.areaSize < link + 128) := by
    simp only [fits, Bool.and_eq_true, decide_eq_true_eq]
    omega
  unfold Reader.linkOk badLink
  rw [Bool.and_eq_true, Bool.and_eq_true, Bool.and_eq_true, room]
  cases s.reader.heldSlot <;> simp only [decide_eq_true_eq, List.all_eq_true] <;> grind

theorem endOfChain_waits {s : State} (none : s.reader.pendingNudge = false) : ∃ b r,
    endOfChain s = (if s.reader.idleRaised then id else raise .idle) { s with
      bus := b, rewrite := r,
      reader := { s.reader with
        state := .waiting, op := .none, idleRaised := true,
        poll := if s.setup.pollInterval = 0 then .none else some s.setup.pollInterval } } := by
  obtain ⟨b, r, e⟩ := changeReader_eq (fun r =>
    { r with state := .waiting, op := .none, idleRaised := true,
             poll := if s.setup.pollInterval = 0 then .none else some s.setup.pollInterval }) s
  refine ⟨b, r, ?_⟩
  unfold endOfChain
  rw [none, ← e]
  cases s.reader.idleRaised <;> rfl

/-- Settles O56. -/
theorem linkReadLeadsOn : Obligations.LinkReadLeadsOn := by
  intro s flight
  obtain ⟨rest, run⟩ := onComplete_live flight
  have ended : ∀ w : Word, w = 0 → linkFound (some w) (s.withBus rest) = endOfChain (s.withBus rest) :=
    fun w zero => if_pos zero
  refine ⟨.of_finish (congrArg finish (run _)) fun t e => readerFault_chainFaulted (s := s.withBus rest) e,
    fun none => ?_, fun nudged => ?_, fun w other bad => ?_, fun w other good => ?_⟩
  · obtain ⟨b, r, waits⟩ := endOfChain_waits (s := s.withBus rest) none
    refine .of_finish (congrArg finish ((run _).trans ((ended 0 rfl).trans waits))) fun t e => ?_
    change Ended ((if s.reader.idleRaised then id else raise .idle) _) t at e
    cases first : s.reader.idleRaised <;> rw [first] at e
    · exact ⟨by rw [e.reader]; rfl, by rw [e.reader]; rfl, by rw [e.reader]; rfl,
        fun _ => e.flagged (flagged_raise ..), (nomatch ·), e.heads, e.senses, e.plans⟩
    · exact ⟨by rw [e.reader]; rfl, by rw [e.reader]; rfl, by rw [e.reader]; rfl,
        (nomatch ·), fun _ => by rw [e.control]; rfl, e.heads, e.senses, e.plans⟩
  · have again : endOfChain (s.withBus rest) =
        requestLink (modReader (fun r => { r with pendingNudge := false }) (s.withBus rest)) := if_pos nudged
    refine .of_finish (congrArg finish ((run _).trans ((ended 0 rfl).trans again))) fun t e => ?_
    obtain ⟨reader, asked⟩ := requestLink_reads e
    exact ⟨reader, asked, by rw [e.control]; rfl⟩
  · have found : linkFound (some w) (s.withBus rest) = readerFault .badLink (s.withBus rest) := by
      have fails : ¬(s.withBus rest).reader.linkOk (s.withBus rest).setup w.toNat = true :=
        fun ok => (linkOk_iff (s.withBus rest) w.toNat).mp ok bad
      rw [linkFound, if_neg other, if_neg fails]
    exact .of_finish (congrArg finish ((run _).trans found)) fun t e => readerFault_chainFaulted (s := s.withBus rest) e
  · have passes : (s.withBus rest).reader.linkOk (s.withBus rest).setup w.toNat = true :=
      (linkOk_iff (s.withBus rest) w.toNat).mpr good
    refine .of_finish (congrArg finish ((run _).trans ((if_neg other).trans (if_pos passes)))) fun t e => ?_
    exact readerReads e (by simp) (by simp)

end Sys2Proof.Machine

/-! ### Records (R144 to R147) -/

namespace Sys2Proof.Machine

theorem HeadId.ofNat?_some {n : Nat} (small : n ≤ 3) : ∃ h : HeadId, HeadId.ofNat? n = some h ∧ h.toNat = n := by
  match n, small with
  | 0, _ => exact ⟨.h0, rfl, rfl⟩
  | 1, _ => exact ⟨.h1, rfl, rfl⟩
  | 2, _ => exact ⟨.h2, rfl, rfl⟩
  | 3, _ => exact ⟨.h3, rfl, rfl⟩

theorem HeadId.even_iff (h : HeadId) : h.even = true ↔ ¬h.toNat % 2 = 1 := by cases h <;> decide

theorem HeadId.toNat_companion_of_even {h : HeadId} (even : h.even = true) : h.companion.toNat = h.toNat + 1 := by
  revert even
  cases h <;> decide

theorem classRemap_all (d : List Byte) (h : HeadId) (age record : Nat) (p : Nat × Nat → Bool) (few : byteAt d 18 ≤ 8) :
    (orderFields d h age record).classRemap.all p = true ↔
      ∀ j ∈ List.range (byteAt d 18), p (byteAt d (20 + 2 * j), byteAt d (21 + 2 * j)) = true := by
  have entries : (orderFields d h age record).remap =
      (List.range 8).map fun j => (byteAt d (20 + 2 * j), byteAt d (21 + 2 * j)) := rfl
  have taken : (List.range 8).take (byteAt d 18) = List.range (byteAt d 18) := by
    rw [List.take_range, Nat.min_eq_left few]
  have count : (orderFields d h age record).remapCount = byteAt d 18 := rfl
  rw [Order.classRemap, entries, count, ← List.map_take, taken]
  simp

/-- Check 5 of R145. -/
theorem remapCheck_iff (d : List Byte) (h : HeadId) (age record : Nat) :
    (decide ((orderFields d h age record).remapCount ≤ 8) &&
      (orderFields d h age record).classRemap.all fun e => decide (e.1 ≤ 16) && decide (e.2 ≤ 63)) = true ↔
    ¬(8 < byteAt d 18 ∨
      ∃ j ∈ List.range (byteAt d 18), 16 < byteAt d (20 + 2 * j) ∨ 63 < byteAt d (21 + 2 * j)) := by
  have count : (orderFields d h age record).remapCount = byteAt d 18 := rfl
  rw [Bool.and_eq_true, decide_eq_true_eq, count]
  by_cases few : byteAt d 18 ≤ 8
  · rw [classRemap_all d h age record _ few]
    simp only [few, Nat.not_lt.mpr few, Bool.and_eq_true, decide_eq_true_eq, true_and, false_or, not_exists, not_and]
    exact forall₂_congr fun _ _ => by omega
  · simp [few, Nat.not_le.mp few]

theorem seatModeOf_eq (n : Nat) (small : n ≤ 2) : (seatModeOf n = .depth ↔ n = 0) ∧ (seatModeOf n = .force ↔ n = 1) ∧
    (seatModeOf n = .shoulder ↔ n = 2) := by
  interval_cases n <;> decide

/-- One check of a list, those after it looked at only where it passes. -/
theorem firstFailing_step_of {α : Type} {ok : Bool} {fails : Prop} [Decidable fails] {a : α} {rest : List (Bool × α)}
    {found : Option α} (check : ok = true ↔ ¬fails) (others : ¬fails → firstFailing rest = found) :
    firstFailing ((ok, a) :: rest) = if fails then some a else found := by
  by_cases f : fails
  · rw [firstFailing_step check rfl, if_pos f, if_pos f]
  · rw [firstFailing_step check (others f)]

/-- Checks 2 to 12 of R145 in the order of the table. -/
theorem firstFailing_orderChecks (c : Setup) (d : List Byte) (h : HeadId) (age record : Nat) (named : h.toNat = byteAt d 10)
    (enabled : c.enabled h = true) : firstFailing (orderChecks c d (orderFields d h age record)) = recordRefusal c d := by
  have within : ¬(3 < byteAt d 10 ∨ c.headMask.getLsbD (byteAt d 10) = false) := by
    rw [← named]
    have small : h.toNat ≤ 3 := by cases h <;> decide
    rw [Setup.enabled] at enabled
    simp [enabled, small]
  have even := HeadId.even_iff h
  have companion := HeadId.toNat_companion_of_even (h := h)
  rw [named] at even companion
  unfold recordRefusal orderChecks
  dsimp only
  rw [if_neg within]
  refine firstFailing_step ?_ ?_
  · simp
  refine firstFailing_step_of ?_ fun paired => ?_
  · simp only [Bool.or_eq_true, Bool.not_eq_true']
    dsimp only [orderFields]
    simp only [decide_eq_false_iff_not, even]
    tauto
  refine firstFailing_step ?_ ?_
  · simp only [Bool.or_eq_true, Bool.not_eq_true', Bool.and_eq_true]
    dsimp only [orderFields]
    simp only [Setup.gangOn, Setup.enabled, named, decide_eq_false_iff_not]
    by_cases ganged : byteAt d 11 = 1
    · rw [companion (even.mpr fun odd => paired ⟨ganged, odd⟩)]
      simp [ganged]
    · simp [ganged]
  refine firstFailing_step_of ?_ fun codes => ?_
  · simp only [Bool.and_eq_true, decide_eq_true_eq]; omega
  refine firstFailing_step (remapCheck_iff d h age record) ?_
  obtain ⟨depth, force, shoulder⟩ := seatModeOf_eq (byteAt d 14) (by omega)
  repeat' first | exact rfl | refine firstFailing_step ?_ ?_
  all_goals
    simp only [fits, inRange, Bool.and_eq_true, Bool.or_eq_true, decide_eq_true_eq, ne_eq]
    dsimp only [orderFields]
    try simp only [depth, force, shoulder]
    omega

/-- A record whose first check fails reaches no other (R145). -/
theorem recordRefusal_of_head {c : Setup} {d : List Byte}
    (bad : 3 < byteAt d 10 ∨ c.headMask.getLsbD (byteAt d 10) = false) : recordRefusal c d = some .badHead := if_pos bad

theorem orderFields_copies {d : List Byte} {h : HeadId} (named : h.toNat = byteAt d 10) (age record : Nat) :
    copiesRecord d (orderFields d h age record) := by
  have half : ∀ i, u16At d i < 65536 := fun i => by
    have low := (d.getD i 0).isLt
    have high := (d.getD (i + 1) 0).isLt
    simp only [u16At, byteAt]
    omega
  exact ⟨rfl, by rw [orderFields, BitVec.toNat_ofNat]; exact Nat.mod_eq_of_lt (half 8), named, by simp [orderFields], rfl,
    rfl, rfl, rfl, by rw [orderFields, BitVec.toNat_ofNat]; exact Nat.mod_eq_of_lt (half 16), rfl, rfl, rfl, rfl, rfl,
    rfl, rfl, rfl, rfl, rfl, rfl, rfl, rfl, rfl, rfl, rfl, rfl, rfl, rfl, rfl, rfl⟩

/-- Checks 1 to 12 of R145: the record's first failure, or the order it holds. -/
theorem checkOrder_eq (c : Setup) (d : List Byte) (age record : Nat) :
    (∀ why, recordRefusal c d = some why → checkOrder c d age record = .error why) ∧
    (recordRefusal c d = none → ∃ o, checkOrder c d age record = .ok o ∧ o.record = record ∧ copiesRecord d o) := by
  by_cases large : 3 < byteAt d 10
  · rw [checkOrder, HeadId.ofNat?_none large, recordRefusal_of_head (.inl large)]
    exact ⟨fun why e => by rw [Option.some.inj e], (nomatch ·)⟩
  obtain ⟨h, found, named⟩ := HeadId.ofNat?_some (Nat.le_of_not_lt large)
  rw [checkOrder, found]
  dsimp only
  by_cases enabled : c.enabled h = true
  · rw [if_pos enabled, firstFailing_orderChecks c d h age record named enabled]
    refine ⟨fun why e => by rw [e], fun e => ⟨_, by rw [e], rfl, orderFields_copies named age record⟩⟩
  · rw [if_neg enabled, recordRefusal_of_head (.inr (by simpa [Setup.enabled, named] using enabled))]
    exact ⟨fun why e => by rw [Option.some.inj e], (nomatch ·)⟩

/-- Settles O57. -/
theorem fetchedOrderIsChecked : Obligations.FetchedOrderIsChecked := by
  intro s record d flight fetching
  obtain ⟨rest, run⟩ := onComplete_live flight
  have fetching' : (s.withBus rest).reader.op = .fetch record := fetching
  have lost : orderFetched none (s.withBus rest) = readerFault .memory (s.withBus rest) := by
    simp only [orderFetched, fetching']
  obtain ⟨fails, passes⟩ := checkOrder_eq s.setup d s.reader.nextAge record
  refine ⟨?_, fun turned => ?_, fun turn => ⟨fun why refused => ?_, fun good => ?_⟩⟩
  · exact .of_finish (congrArg finish ((run _).trans lost)) fun t e => readerFault_chainFaulted (s := s.withBus rest) e
  · have found : orderFetched (some d) (s.withBus rest) = readerFault .turn (s.withBus rest) := by
      have turned' : ¬recordTurn d = if (s.withBus rest).reader.expectedTurn then 1 else 0 := turned
      simp only [orderFetched, fetching', if_neg turned']
    exact .of_finish (congrArg finish ((run _).trans found)) fun t e =>
      readerFault_chainFaulted (s := s.withBus rest) e
  all_goals have turn' : recordTurn d = if (s.withBus rest).reader.expectedTurn then 1 else 0 := turn
  · have found : orderFetched (some d) (s.withBus rest) = rejectOrder record .rejected why (s.withBus rest) := by
      have checked : checkOrder (s.withBus rest).setup d (s.withBus rest).reader.nextAge record = .error why := fails why refused
      simp only [orderFetched, fetching', if_pos turn', checked]
    refine .of_finish (congrArg finish ((run _).trans found)) fun t e => ?_
    obtain ⟨reader, asked⟩ := readerWrites e (by simp) (by simp)
    exact ⟨by rw [reader], by rw [reader]; rfl, asked⟩
  · obtain ⟨o, checked, place, copies⟩ := passes good
    have found : orderFetched (some d) (s.withBus rest) = requestRead .slotRead (slotOffset s.setup o.mapId) 4
        (modReader (fun r => { r with op := .slot o (recordWithdraw d ≠ 0) }) (s.withBus rest)) := by
      have checked' : checkOrder (s.withBus rest).setup d (s.withBus rest).reader.nextAge record = .ok o := checked
      simp only [orderFetched, fetching', if_pos turn', checked']
      rfl
    refine .of_finish (congrArg finish ((run _).trans found)) fun t e => ?_
    obtain ⟨reader, asked⟩ := readerReads e (by simp) (by simp)
    have ⟨_, _, _, _, _, _, _, slot, _⟩ := copies
    refine ⟨by rw [reader]; rfl, ⟨o, decide (recordWithdraw d ≠ 0), by rw [reader], place, copies, decide_eq_true_iff⟩, ?_⟩
    rw [← slot]
    exact asked

/-! ### Pin maps and the taking (R145 to R148) -/

theorem checkSlot_eq (area value : Nat) :
    (value = 0 ∨ value % 64 ≠ 0 ∨ area < value + 32 → checkSlot area 32 value = none) ∧
    (value ≠ 0 → value % 64 = 0 → value + 32 ≤ area → checkSlot area 32 value = some value) := by
  have good : value ≠ 0 ∧ fits 64 0 value 32 area = true ↔ value ≠ 0 ∧ value % 64 = 0 ∧ value + 32 ≤ area := by
    simp only [fits, Bool.and_eq_true, decide_eq_true_eq]
    omega
  unfold checkSlot
  constructor
  · intro bad
    rw [if_neg (fun ok => by have := good.mp ok; omega)]
  · intro other aligned room
    rw [if_pos (good.mpr ⟨other, aligned, room⟩)]

theorem rejectOrder_writes {record : Nat} {outcome : OrderOutcome} {reason : Reason} {s t : State}
    (e : Ended (rejectOrder record outcome reason s) t) :
    writes .rejectWrite (fieldsOffset record) (DeviceFields.bare outcome reason).bytes t :=
  (readerWrites e (by simp) (by simp)).2

theorem takeNow_takes {o : Order} {s t : State} (e : Ended (takeNow o s) t) :
    t.reader.op = .taken o ∧ writes .takenWrite (statusOffset o.record) [statusTaken] t := by
  obtain ⟨reader, asked⟩ := readerWrites e (by simp) (by simp)
  exact ⟨by rw [reader], asked⟩

/-- TAKE_TABLE_READ_DONE is told to the read in flight. -/
theorem exec_tableRead {a : Access} {s : State} (table : a = .slotRead ∨ a = .mapRead) (flight : inFlightFor a s) :
    ∃ rest, ∀ data, exec (.takeTableReadDone data) s = finish (tableRead data (s.withBus rest)) := by
  obtain ⟨rest, run⟩ := onComplete_live flight
  obtain ⟨r, more, bus, granted, live, access⟩ := flight
  have mine : (if s.inFlight = some .mapRead then Access.mapRead else .slotRead) = a := by
    rcases table with rfl | rfl <;> simp [State.inFlight, bus, granted, access]
  refine ⟨rest, fun data => ?_⟩
  show finish (onComplete (if s.inFlight = some .mapRead then .mapRead else .slotRead) (tableRead data) s) = _
  rw [mine, run]

/-- Settles O58. -/
theorem validOrderIsTakenHeldOrEnded : Obligations.ValidOrderIsTakenHeldOrEnded := by
  intro s o withdraw d
  refine ⟨fun flight op => ?_, fun flight op => ?_, fun flight slot => ?_⟩
  · obtain ⟨rest, run⟩ := exec_tableRead (.inl rfl) flight
    have op' : (s.withBus rest).reader.op = .slot o withdraw := op
    obtain ⟨bad, good⟩ := checkSlot_eq s.setup.areaSize (u32At d 0)
    refine ⟨.of_finish (run none) fun t e => readerFault_chainFaulted (s := s.withBus rest) e, fun wrong => ?_,
      fun other aligned room => ?_⟩
    · have found : tableRead (some d) (s.withBus rest) = rejectOrder o.record .rejected .badTable (s.withBus rest) := by
        have slot : checkSlot (s.withBus rest).setup.areaSize 32 (u32At d 0) = none := bad wrong
        simp only [tableRead, op', slot]
      exact .of_finish ((run _).trans (congrArg finish found)) fun t e => rejectOrder_writes e
    · have found : tableRead (some d) (s.withBus rest) = requestRead .mapRead (u32At d 0) 32
          (modReader (fun r => { r with op := .mapHeader o withdraw }) (s.withBus rest)) := by
        have slot : checkSlot (s.withBus rest).setup.areaSize 32 (u32At d 0) = some (u32At d 0) := good other aligned room
        simp only [tableRead, op', slot]
      exact .of_finish ((run _).trans (congrArg finish found)) fun t e => readerReads e (by simp) (by simp)
  · obtain ⟨rest, run⟩ := exec_tableRead (.inr rfl) flight
    have op' : (s.withBus rest).reader.op = .mapHeader o withdraw := op
    have found : tableRead (some d) (s.withBus rest) =
        if !inRange 1 (u16At d 2) 1024 then rejectOrder o.record .rejected .badTable (s.withBus rest)
        else if o.resultCapacity < u16At d 2 then rejectOrder o.record .rejected .capacity (s.withBus rest)
        else if withdraw then rejectOrder o.record .withdrawn .none (s.withBus rest)
        else takeOrHold { o with pinCount := u16At d 2 } (s.withBus rest) := by
      simp only [tableRead, op']
    have range : inRange 1 (u16At d 2) 1024 = true ↔ 1 ≤ u16At d 2 ∧ u16At d 2 ≤ 1024 := by
      simp [inRange]
    refine ⟨.of_finish (run none) fun t e => readerFault_chainFaulted (s := s.withBus rest) e, fun wrong => ?_,
      fun low high => ?_⟩
    · rw [if_pos (by simpa using mt range.mp wrong)] at found
      exact .of_finish ((run _).trans (congrArg finish found)) fun t e => rejectOrder_writes e
    · rw [if_neg (by simpa using range.mpr ⟨low, high⟩)] at found
      refine ⟨fun small => ?_, fun fits gone => ?_, fun fits stays room => ?_, fun fits stays full => ?_⟩
      · rw [if_pos small] at found
        exact .of_finish ((run _).trans (congrArg finish found)) fun t e => rejectOrder_writes e
      · rw [if_neg (Nat.not_lt.mpr fits), if_pos gone] at found
        exact .of_finish ((run _).trans (congrArg finish found)) fun t e => rejectOrder_writes e
      · have roomy : (s.withBus rest).reader.room { o with pinCount := u16At d 2 } = true := room
        rw [if_neg (Nat.not_lt.mpr fits), if_neg (by simp [stays]), takeOrHold, if_pos roomy] at found
        exact .of_finish ((run _).trans (congrArg finish found)) fun t e => takeNow_takes e
      · have crowded : ¬(s.withBus rest).reader.room { o with pinCount := u16At d 2 } = true := by
          rw [show (s.withBus rest).reader.room { o with pinCount := u16At d 2 } = s.reader.room o from rfl, full]
          decide
        rw [if_neg (Nat.not_lt.mpr fits), if_neg (by simp [stays]), takeOrHold, if_neg crowded] at found
        refine .of_finish ((run _).trans (congrArg finish found)) fun t e => ?_
        rw [e.reader, changeReader_reader]
        exact ⟨rfl, rfl⟩
  · obtain ⟨rest, run⟩ := onComplete_live flight
    have slot' : (s.withBus rest).reader.heldSlot = some o := slot
    have lost : heldRead none (s.withBus rest) = readerFault .memory (s.withBus rest) := by
      simp only [heldRead, slot']
    have found : ∀ v, heldRead (some v) (s.withBus rest) =
        if v = 0 then takeNow o (s.withBus rest) else rejectOrder o.record .withdrawn .none (s.withBus rest) := fun v => by
      simp only [heldRead, slot']
    exact ⟨.of_finish (congrArg finish ((run _).trans lost)) fun t e => readerFault_chainFaulted (s := s.withBus rest) e,
      .of_finish (congrArg finish ((run _).trans ((found 0).trans (if_pos rfl)))) fun t e => takeNow_takes e,
      fun v other => .of_finish (congrArg finish ((run _).trans ((found v).trans (if_neg other)))) fun t e =>
        rejectOrder_writes e⟩

end Sys2Proof.Machine

/-! ### The end of an order at the reader (R146, R147, R149, R155) -/

namespace Sys2Proof.Machine

/-- The reader once the order at a record has been disposed of (R149). -/
def Reader.disposed (record : Nat) (r : Reader) : Reader :=
  { r with anchor := record, expectedTurn := !r.expectedTurn, takenCount := r.takenCount + 1, idleRaised := false,
           op := .none }

/-- Only what the reader works on and its stop differ. -/
def Reader.sameLists (r q : Reader) : Prop := ∃ op stopping, q = { r with op := op, stopping := stopping }

theorem dispose_eq (record : Nat) (s : State) : dispose record s =
    if s.reader.state = .reading then requestLink (changeReader (Reader.disposed record) s)
    else stopAdvance (changeReader (Reader.disposed record) s) := by
  have state : (changeReader (Reader.disposed record) s).reader.state = s.reader.state := by
    rw [changeReader_reader]
    rfl
  rw [← state]
  rfl

theorem dispose_reader (record : Nat) (s : State) :
    (s.reader.disposed record).sameLists (dispose record s).reader := by
  rw [dispose_eq]
  split
  · exact ⟨.link, (changeReader (Reader.disposed record) s).reader.stopping, by rw [← changeReader_reader (Reader.disposed record) s]; rfl⟩
  · obtain ⟨op, stopping, e⟩ := stopAdvance_reader (changeReader (Reader.disposed record) s)
    exact ⟨op, stopping, by rw [e, changeReader_reader]⟩

/-- A READING reader reads the new anchor's link. -/
theorem dispose_reads {record : Nat} {s t : State} (reading : s.reader.state = .reading) (e : Ended (dispose record s) t) :
    reads .linkRead record 4 t := by
  rw [dispose_eq, if_pos reading] at e
  have asked := (requestLink_reads e).2
  rw [changeReader_reader] at asked
  exact asked

theorem disposed_of_dispose {record : Nat} {s t : State} (e : Ended (dispose record s) t) :
    (s.reader.disposed record).sameLists t.reader ∧ disposed record s t := by
  obtain ⟨op, stopping, lists⟩ := dispose_reader record s
  rw [← e.reader] at lists
  exact ⟨⟨op, stopping, lists⟩, by rw [lists]; rfl, by rw [lists]; rfl, by rw [lists]; rfl⟩

/-- The queues once an order has joined those of its heads (R147). -/
theorem append_queues {o : Order} (primary : o.ganged = true → o.head = o.head.primary) (r : Reader) (h : HeadId) :
    (r.append o).queues.get h = if h ∈ o.heads then r.queues.get h ++ [o.age] else r.queues.get h := by
  unfold Reader.append Order.heads
  cases ganged : o.ganged
  · simp only [Bool.false_eq_true, if_false, List.foldl_cons, List.foldl_nil, Four.get_set, List.mem_singleton]
    split
    · next e => rw [e]
    · rfl
  · have other : o.head ≠ o.head.companion := fun same =>
      o.head.companion_ne_primary (same.symm.trans (primary ganged))
    simp only [if_true, List.foldl_cons, List.foldl_nil, Four.get_set, List.mem_cons, List.not_mem_nil, or_false,
      other.symm, if_false]
    grind

theorem stopAdvance_control (s : State) : (stopAdvance s).control = s.control := by
  unfold stopAdvance
  split
  · split
    · rfl
    · exact changeReader_control ..
  · rfl

theorem dispose_control (record : Nat) (s : State) : (dispose record s).control = s.control := by
  rw [dispose_eq]
  split
  · exact changeReader_control ..
  · rw [stopAdvance_control, changeReader_control]

/-- Settles O59. -/
theorem chainWritesDisposeOfOrders : Obligations.ChainWritesDisposeOfOrders := by
  intro s
  refine ⟨fun o flight op primary => ?_, fun record flight op => ?_, fun record flight op => ?_,
    fun o flight op listed => ?_, fun age flight op => ?_⟩ <;> obtain ⟨rest, run⟩ := onComplete_live flight
  · let u := modReader (Reader.append o) (s.withBus rest)
    have acts : takenWritten (s.withBus rest) = dispose o.record u := by
      have op' : (s.withBus rest).reader.op = .taken o := op
      simp only [takenWritten, op', u]
    refine .of_finish (congrArg finish ((run _).trans acts)) fun t e => ?_
    obtain ⟨⟨op, stopping, lists⟩, away⟩ := disposed_of_dispose e
    refine ⟨away, by rw [lists]; rfl, fun h => ?_, fun reading => dispose_reads (s := u) reading e,
      ((modReader_touches (Reader.append o) (s.withBus rest)).trans (dispose_touches o.record u)).sameHeads.trans
        e.sameHeads⟩
    rw [lists]
    exact append_queues primary s.reader h
  · have acts : rejectWritten (s.withBus rest) = requestWrite .rejectWrite (statusOffset record) [statusDone]
        (modReader (fun r => { r with op := .rejectDone record }) (s.withBus rest)) := by
      have op' : (s.withBus rest).reader.op = .rejectFields record := op
      simp only [rejectWritten, op']
    refine .of_finish (congrArg finish ((run _).trans acts)) fun t e => ?_
    obtain ⟨reader, asked⟩ := readerWrites e (by simp) (by simp)
    exact ⟨by rw [reader], by rw [reader]; rfl, asked⟩
  · let u := raise .done (modReader (fun r => { r with completed := r.completed + 1 }) (s.withBus rest))
    have acts : rejectWritten (s.withBus rest) = dispose record u := by
      have op' : (s.withBus rest).reader.op = .rejectDone record := op
      simp only [rejectWritten, op', u]
    refine .of_finish (congrArg finish ((run _).trans acts)) fun t e => ?_
    obtain ⟨⟨op, stopping, lists⟩, away⟩ := disposed_of_dispose e
    refine ⟨away, ?_, by rw [lists]; rfl, fun reading => dispose_reads (s := u) reading e⟩
    rw [flagged, e.control, dispose_control]
    exact flagged_raise ..
  · have acts : stopWritten (s.withBus rest) = requestWrite .stopWrite (statusOffset o.record) [statusDone]
        (modReader (fun r => { r with op := .stopDone o.age }) (s.withBus rest)) := by
      have op' : (s.withBus rest).reader.op = .stopFields o.age := op
      have listed' : (s.withBus rest).reader.find o.age = some o := listed
      simp only [stopWritten, op', listed']
    refine .of_finish (congrArg finish ((run _).trans acts)) fun t e => ?_
    obtain ⟨reader, asked⟩ := readerWrites e (by simp) (by simp)
    exact ⟨by rw [reader], asked⟩
  · let f : Reader → Reader := fun r => { r.remove age with completed := r.completed + 1, op := .none }
    let u := raise .done (changeReader f (s.withBus rest))
    have acts : stopWritten (s.withBus rest) = stopAdvance u := by
      have op' : (s.withBus rest).reader.op = .stopDone age := op
      simp only [stopWritten, op', u, f]
    refine .of_finish (congrArg finish ((run _).trans acts)) fun t e => ?_
    obtain ⟨op, stopping, lists⟩ := stopAdvance_reader u
    have changed : u.reader = f s.reader := changeReader_reader f (s.withBus rest)
    rw [changed, ← e.reader] at lists
    refine ⟨?_, by rw [lists], by rw [lists]; rfl, by rw [lists]; rfl, by rw [lists]; rfl,
      (((changeReader_touches f (s.withBus rest)).trans (raise_touches .done _).reader).trans
        (stopAdvance_touches u)).sameHeads.trans e.sameHeads⟩
    rw [flagged, e.control, stopAdvance_control]
    exact flagged_raise ..

/-! ### The poll timer and reads without completion (R140, R150) -/

theorem inFlight_of {a : Access} {s : State} (flight : inFlightFor a s) : s.inFlight = some a := by
  obtain ⟨r, rest, bus, granted, live, access⟩ := flight
  simp [State.inFlight, bus, granted, access]

/-- A read without completion is told to its block as a bus error. -/
theorem exec_busReadTimeout {a : Access} {s : State} (flight : inFlightFor a s) (read : a.isRead = true) :
    exec .busReadTimeout s = finish (onComplete a (readFailed a) s) := by
  show finish (match s.inFlight with
    | none => s
    | some a => if a.isRead then onComplete a (readFailed a) s else s) = _
  rw [inFlight_of flight]
  exact congrArg finish (if_pos read)

/-- Settles O60. -/
theorem pollTimerAndReadTimeout : Obligations.PollTimerAndReadTimeout := by
  refine ⟨fun s waiting out => ?_, fun s => ⟨fun flight => ?_, fun flight => exec_busReadTimeout flight rfl,
    fun flight => exec_busReadTimeout flight rfl, fun flight => ?_, fun flight => exec_busReadTimeout flight rfl,
    fun h flight => ?_, fun h flight => exec_busReadTimeout flight rfl, fun h flight => exec_busReadTimeout flight rfl⟩⟩
  · let f : Reader → Reader := fun r => { r with state := .reading, poll := none }
    refine .of_finish (u := requestLink (changeReader f s)) (congrArg finish (if_pos ⟨waiting, out⟩)) fun t e => ?_
    obtain ⟨reader, asked⟩ := requestLink_reads e
    rw [changeReader_reader] at reader asked
    have touched := (changeReader_touches f s).trans (requestLink_touches (changeReader f s))
    have control : (requestLink (changeReader f s)).control = s.control := changeReader_control f s
    obtain ⟨b, r, changed⟩ := changeReader_eq f s
    refine ⟨reader, asked, e.control.trans control, touched.sameHeads.trans e.sameHeads,
      (touched.kept.trans e.stopKept).tools, ?_⟩
    rw [changed] at e
    exact ⟨e.claims, e.claimMsgs, e.grants⟩
  · have told := exec_busReadTimeout flight rfl
    refine ⟨told, ?_⟩
    obtain ⟨rest, run⟩ := onComplete_live flight
    exact .of_finish (told.trans (congrArg finish (run _))) fun t e => readerFault_chainFaulted (s := s.withBus rest) e
  · rcases flight with flight | flight
    · have told := exec_busReadTimeout flight rfl
      rw [told]
      show _ = finish (onComplete (if s.inFlight = some .mapRead then .mapRead else .slotRead) (tableRead none) s)
      rw [inFlight_of flight]
      rfl
    · have told := exec_busReadTimeout flight rfl
      rw [told]
      show _ = finish (onComplete (if s.inFlight = some .mapRead then .mapRead else .slotRead) (tableRead none) s)
      rw [inFlight_of flight, if_pos rfl]
      rfl
  · have other : exec (.withdrawReadDone h none) s = finish (if s.inFlight = some (.nudgeRead h) then
        onComplete (.nudgeRead h) (nudgeFound h none) s else onComplete (.withdrawRead h) (withdrawFound h none) s) := rfl
    rw [other]
    rcases flight with flight | flight
    · rw [exec_busReadTimeout flight rfl, inFlight_of flight, if_neg (by simp)]
      rfl
    · rw [exec_busReadTimeout flight rfl, inFlight_of flight, if_pos rfl]
      rfl

end Sys2Proof.Machine

/-! ## Operator station -/

namespace Sys2Proof.Machine

/-! ### One unit among all -/

/-- A head that runs a unit of its own is not one of another unit's. -/
theorem not_leads_of_mem {t u : State} {x k : HeadId} (together : GangsAligned t) (leads : t.leads x = true)
    (mine : k ∈ t.unit x) (other : k ≠ x) (gang : (u.head k).gang = (t.head k).gang) : u.leads k = false := by
  cases g : (t.head x).gang
  · exact absurd (by simpa [mem_unit_iff, g] using mine) other
  · have pair : k = x.primary ∨ k = x.companion := by simpa [mem_unit_iff, g] using mine
    have first : x.primary = x := leads_iff.mp leads g
    have both : (u.head k).gang = true := by rw [gang, gang_of_mem_unit together mine, g]
    rw [Bool.eq_false_iff]
    intro own
    exact other ((leads_iff.mp own both).symm.trans ((HeadId.companion_of_eq_primary pair).1.trans first))

/-- In a round of an operation that dissolves no gang each unit is served once, by the head that leads it. -/
theorem eachLead_serves {P : HeadState → Prop} {f : HeadId → State → State} {s : State} {x : HeadId}
    (together : GangsAligned s) (leads : s.leads x = true)
    (own : ∀ t h, Worked P (t.unit h) t (f h t))
    (gangs : ∀ t k, ((f x t).head k).gang = (t.head k).gang) :
    ∃ t, (∀ k ∈ s.unit x, sameAt k s t) ∧ Worked P HeadId.all (f x t) (eachLead f s) ∧
      ∀ k ∈ s.unit x, sameAt k (f x t) (eachLead f s) := by
  obtain ⟨t, _, same, _, w, after⟩ := eachLead_at together leads (fun t h _ _ => own t h)
    (fun t k u together leads mine other same leadsk => by
      have alone := not_leads_of_mem together leads mine other ((congrArg Head.gang same).trans (gangs t k))
      rw [alone] at leadsk
      cases leadsk)
  exact ⟨t, same, w, after⟩

theorem gang_haltUnit (why : Reason) (x : HeadId) (s : State) (k : HeadId) :
    ((haltUnit why x s).head k).gang = (s.head k).gang := by
  by_cases mine : k ∈ s.unit x
  · obtain ⟨_, _, _, _, e⟩ := head_haltUnit why x s mine
    rw [e]
    rfl
  · rw [(haltUnit_worked (P := fun _ => True) (List.Subset.refl _) why).frame.head mine]

/-! ### GUARD (R136) -/

theorem eachLead_press {f : HeadId → State → State} (one : ∀ h s, PressTouched s (f h s)) (s : State) :
    PressTouched s (eachLead f s) :=
  eachHead_relates (fun _ => .rfl) (fun _ _ _ => .trans) (fun h s => by
    split
    · exact one h s
    · exact .rfl) HeadId.all s

/-- Settles O35. -/
theorem guardOpeningHaltsMovingHeads : Obligations.GuardOpeningHaltsMovingHeads := by
  intro s together closed
  have acts : exec .guardOpen s =
      finish (eachLead (haltIn HeadState.inMotion .guard) (raise .safe (setGuard true s))) := by
    show finish (if s.guardOpen = true then s else _) = _
    rw [closed]
    rfl
  have frame : Confined HeadId.all (raise .safe (setGuard true s)) (eachLead (haltIn HeadState.inMotion .guard) _) :=
    (eachLead_worked (P := fun _ => True) _ fun _ _ => haltIn_worked (subset_all _) _ _).frame
  have stop := (eachLead_press (haltIn_press HeadState.inMotion .guard) (raise .safe (setGuard true s))).stop
  obtain ⟨n, raised⟩ := control_raise (setGuard true s).control .safe
  have kept := stop.kept
  refine .of_finish acts fun t e => ⟨?_, e.flagged (frame.flagged (flagged_raise ..)), ?_, fun h moving => ?_,
    fun h still => ?_, e.claims.trans kept.claims, (kept.trans e.stopKept).tools, e.reader.trans stop.reader⟩
  · rw [State.guardOpen, e.inputs, kept.inputs]
    rfl
  · rw [e.control, frame.device, raise_control, raised]
    rfl
  · obtain ⟨halted, flag⟩ := (haltMoving_at .guard (s := raise .safe (setGuard true s)) together h).1 moving
    exact haltedBy.of_ended ⟨fun k hk => List.mem_singleton.mp hk ▸ halted, flag⟩ e
  · exact (e.head h).trans ((haltMoving_at .guard (s := raise .safe (setGuard true s)) together h).2 still).1

/-! ### START_RELEASE (R131, R135) -/

theorem Line.take_level (level : Bool) (l : Line) : (l.take level).level = level := by
  unfold Line.take
  split
  · assumption
  · rfl

theorem Line.take_same {level : Bool} {l : Line} (same : level = l.level) : l.take level = l := if_pos same.symm

/-- The buttons and the pair after a release. -/
def released (a b : Bool) (i : Inputs) : Inputs :=
  { i with startA := i.startA.take a, startB := i.startB.take b, pair := pairReleased a b i.pair }

theorem pairRelease_eq (a b : Bool) (s : State) :
    pairRelease a b (setStarts a b s) = { s with inputs := released a b s.inputs } := by
  unfold pairRelease released
  have pair : (setStarts a b s).inputs.pair = s.inputs.pair := rfl
  rw [pair]
  cases e : s.inputs.pair <;> cases a <;> cases b <;> simp [pairReleased, setPair, setStarts, modInputs, e]

theorem gang_offerRelease (x : HeadId) (s : State) (k : HeadId) :
    ((offerRelease x s).head k).gang = (s.head k).gang := by
  unfold offerRelease
  dsimp only
  split
  · exact gang_haltUnit ..
  · split
    · by_cases own : k = x
      · subst own; simp
      · simp [own]
    · rfl

theorem offerRelease_press (x : HeadId) (s : State) : PressTouched s (offerRelease x s) := by
  unfold offerRelease
  dsimp only
  split
  · exact haltUnit_press ..
  · split
    · exact modHead_press ..
    · exact .rfl

/-- Settles O37. -/
theorem releaseHaltsHeadsStartedByPair : Obligations.ReleaseHaltsHeadsStartedByPair := by
  intro s a b together falls
  let u : State := { s with inputs := released a b s.inputs }
  have acts : exec (.startRelease a b) s = finish (eachLead offerRelease u) := by
    have fallen : ((s.inputs.startA.level && !a) || (s.inputs.startB.level && !b)) = true := by simpa using falls
    show finish (if _ then eachLead offerRelease (pairRelease a b (setStarts a b s)) else s) = _
    rw [if_pos fallen, pairRelease_eq]
  have stop := (eachLead_press offerRelease_press u).stop
  have kept := stop.kept
  refine .of_finish acts fun t e => ?_
  have inputs : t.inputs = released a b s.inputs := e.inputs.trans kept.inputs
  refine ⟨by rw [inputs]; exact Line.take_level .., by rw [inputs]; exact Line.take_level ..,
    fun same => by rw [inputs]; exact Line.take_same same, fun same => by rw [inputs]; exact Line.take_same same,
    by rw [inputs]; rfl, fun x leads => ?_, e.claims.trans kept.claims, (kept.trans e.stopKept).tools,
    e.reader.trans stop.reader⟩
  obtain ⟨v, same, w, after⟩ := eachLead_serves (P := fun _ => True) (f := offerRelease) (s := u) together leads
    (fun t h => offerRelease_worked (List.Subset.refl _)) (gang_offerRelease x)
  have head : v.head x = s.head x := (same x (mem_unit_self u x)).1
  have unit : v.unit x = s.unit x := unit_congr (congrArg Head.gang head)
  have ends : t.head x = (offerRelease x v).head x := (e.head x).trans (after x (mem_unit_self u x)).1
  split
  · next byPair =>
    have halts : offerRelease x v = haltUnit .startReleased x v := by
      rw [offerRelease, head]
      exact if_pos (by simpa using byPair)
    rw [halts] at w after
    refine haltedBy.of_ended ⟨fun k hk => ?_, w.frame.flagged (haltUnit_flagged ..)⟩ e
    exact (haltedAt_haltUnit .startReleased x v (unit.symm ▸ hk)).of_sameAt (after k hk)
  · next other =>
    have stays : offerRelease x v = if (s.head x).startRead = some true then
        modHead x (fun m => { m with releaseSeen := true }) v else v := by
      rw [offerRelease, head]
      exact if_neg (by simpa using other)
    rw [ends, stays]
    split
    · rw [head_modHead_same, head]
    · exact head

end Sys2Proof.Machine

/-! ### An order refused (R57, R58) -/

namespace Sys2Proof.Machine

theorem refuse_stop (outcome : OrderOutcome) (reason : Reason) (x : HeadId) (s : State) :
    StopTouched s (refuse outcome reason x s) :=
  (endWork_stop x s).trans (closeBefore_press ..).stop

theorem closeBefore_senses (outcome : OrderOutcome) (reason : Reason) (x : HeadId) (s : State) :
    (closeBefore outcome reason x s).senses = s.senses := by
  unfold closeBefore
  dsimp only
  split
  · rfl
  · split
    · rfl
    · exact beginClosing_senses ..

theorem letGo_senses (x : HeadId) (s : State) : (letGo x s).senses = s.senses := by
  unfold letGo
  dsimp only
  split <;> rfl

theorem sense_endWork (x : HeadId) (s : State) (k : HeadId) :
    (endWork x s).sense k = if k ∈ s.unit x then (s.sense k).abandonTare else s.sense k := by
  have unit : (dropRequests (Access.ofPrep x) s).unit x = s.unit x := unit_congr rfl
  have dropped := eachHead_modSense (fun _ => Sense.abandonTare) (s.unit x) (dropRequests (Access.ofPrep x) s)
    (unit_nodup s x) k
  rw [← unit] at dropped
  unfold endWork
  extract_lets a b c d
  have plan : c.senses = b.senses := by
    dsimp only [c]
    split <;> rfl
  have same : (modHead x (fun m => { m with prep := .none, startRead := none, releaseSeen := false, posLost := false }) d).senses
      = b.senses := (letGo_senses x c).trans plan
  have taken := congrArg (Four.get · k) same
  rw [← unit]
  exact taken.trans (by rw [unit]; exact dropped)

/-- An order refused: every tare of its unit is abandoned (R58, R113). -/
theorem sense_refuse (outcome : OrderOutcome) (reason : Reason) (x : HeadId) (s : State) (k : HeadId) :
    (refuse outcome reason x s).sense k = if k ∈ s.unit x then (s.sense k).abandonTare else s.sense k := by
  rw [← sense_endWork x s k]
  exact congrArg (Four.get · k) (closeBefore_senses ..)

theorem abandonTare_tare (n : Sense) : n.abandonTare.tare = none ∧
    n.abandonTare.tareValid = (n.tareValid && n.tare.isNone) ∧ n.abandonTare.depth = n.depth := by
  unfold Sense.abandonTare
  cases h : n.tare <;> simp [h]

/-- Settles O39. -/
theorem ramTopFallAbandonsATare : Obligations.RamTopFallAbandonsATare := by
  intro s h top
  let u := setRamTop h false s
  have acts : exec (.ramTopFall h) s = finish (if (s.unit h).any (fun k => (s.sense k).tare.isSome) then
      refuse .refused .ramNotTop (s.lead h) u else u) := by
    show finish (if s.ramTop h = true then _ else s) = _
    rw [if_pos top]
    rfl
  have falls : ∀ v, StopKept u v → v.ramTop h = false := fun v kept => by
    rw [State.ramTop, kept.inputs]
    show (((s.inputs.ramTop.set h (Line.settle false)).get h).level) = false
    rw [Four.get_set_same]
    rfl
  by_cases taring : (s.unit h).any (fun k => (s.sense k).tare.isSome) = true
  · rw [if_pos taring] at acts
    have stop := refuse_stop .refused .ramNotTop (s.lead h) u
    have some : ∃ k ∈ s.unit h, (s.sense k).tare ≠ none := by simpa [Option.isSome_iff_ne_none] using taring
    refine .of_finish acts fun t e => ?_
    have kept := stop.kept.trans e.stopKept
    have ram := falls t kept
    refine ⟨ram, by simp [State.headBusy, ram], ?_, kept.claims, kept.tools, e.reader.trans stop.reader,
      fun none => ?_, fun o _ order unfixed intact => ⟨fun k mine => ?_, ?_⟩⟩
    · rw [e.sense, sense_refuse]
      split
      · exact (abandonTare_tare (s.sense h)).2.2
      · rfl
    · obtain ⟨k, mine, tare⟩ := some
      exact absurd (none k mine) tare
    · rw [e.sense, sense_refuse, if_pos (show k ∈ u.unit (s.lead h) from mine)]
      obtain ⟨tare, valid, _⟩ := abandonTare_tare (s.sense k)
      exact ⟨tare, valid⟩
    · exact (closingBare_ended (s := u) .refused .ramNotTop order unfixed intact).of_ended e
  · rw [if_neg taring] at acts
    have none : ∀ k ∈ s.unit h, (s.sense k).tare = none := by simpa using taring
    refine .of_finish acts fun t e => ?_
    have kept : StopKept u t := e.stopKept
    have ram := falls t kept
    refine ⟨ram, by simp [State.headBusy, ram], by rw [e.sense]; rfl, kept.claims, kept.tools, e.reader,
      fun _ => e.sameHeads, fun o some => ?_⟩
    obtain ⟨k, mine, tare⟩ := some
    exact absurd (none k mine) tare

/-! ### Removal (R58, R68, R97, R105) -/

/-- A tool taken from a head: its line and its record, the front-end's tare, and the event. -/
def toolGone (h : HeadId) (s : State) : State :=
  raise .tool (changeTool h Tool.removal (modSense h (fun n => { n.abandonTare with tareValid := false })
    (if s.onToolBus h then freeLine 2000 (setPresent h false s) else setPresent h false s)))

theorem exec_toolRemoval {h : HeadId} {s : State} (present : s.toolPresent h = true) :
    exec (.toolRemoval h) s = finish (removalSeen ((toolGone h s).lead h) (toolGone h s)) := by
  show finish (if s.toolPresent h = true then _ else s) = _
  rw [if_pos present]
  rfl

theorem removalSeen_stop (x : HeadId) (s : State) : StopTouched s (removalSeen x s) := by
  unfold removalSeen
  dsimp only
  split
  · exact (haltUnit_press ..).stop
  · split
    · exact refuse_stop ..
    · exact .rfl

/-- What a halt or a refusal leaves of a tare that is over and invalid. -/
theorem removalSeen_tareless {x k : HeadId} {s : State} (tare : (s.sense k).tare = none)
    (invalid : (s.sense k).tareValid = false) :
    ((removalSeen x s).sense k).tare = none ∧ ((removalSeen x s).sense k).tareValid = false := by
  unfold removalSeen
  dsimp only
  split
  · by_cases mine : k ∈ s.unit x
    · obtain ⟨contact, e⟩ := sense_haltUnit .toolLost x s mine
      rw [e]
      exact ⟨tare, invalid⟩
    · rw [((haltUnit_worked (P := fun _ => True) (List.Subset.refl _) .toolLost).frame.others k mine).2.1]
      exact ⟨tare, invalid⟩
  · split
    · rw [sense_refuse]
      split
      · obtain ⟨none, valid, _⟩ := abandonTare_tare (s.sense k)
        exact ⟨none, by rw [valid, invalid]; rfl⟩
      · exact ⟨tare, invalid⟩
    · exact ⟨tare, invalid⟩

theorem changeTool_eq (h : HeadId) (f : Tool → Tool) (s : State) : ∃ c b r, changeTool h f s =
    { s with tools := s.tools.set h (f (s.tool h)), control := c, bus := b, rewrite := r } := by
  unfold changeTool
  dsimp only
  split
  · obtain ⟨b, r, e⟩ := requestPart_touches (.live h) (raise .tool (modTool h (fun _ => f (s.tool h)) s))
    rw [e]
    exact ⟨_, b, r, rfl⟩
  · exact ⟨s.control, s.bus, s.rewrite, rfl⟩

/-- The line a transaction of the head has been cut from. -/
def lineCut (h : HeadId) (s : State) : ToolBus :=
  if s.onToolBus h then { s.toolBus with transaction := none, idleNeeded := 2000, idle := 0 } else s.toolBus

theorem toolGone_eq (h : HeadId) (s : State) : ∃ c b r, toolGone h s =
    { s with
      inputs := { s.inputs with toolPresent := s.inputs.toolPresent.set h (Line.settle false) }
      senses := s.senses.set h { (s.sense h).abandonTare with tareValid := false }
      tools := s.tools.set h (s.tool h).removal
      toolBus := lineCut h s, control := c, bus := b, rewrite := r } := by
  obtain ⟨c, b, r, e⟩ := changeTool_eq h Tool.removal (modSense h (fun n => { n.abandonTare with tareValid := false })
    (if s.onToolBus h then freeLine 2000 (setPresent h false s) else setPresent h false s))
  refine ⟨c.raise .tool, b, r, ?_⟩
  rw [toolGone, e, lineCut]
  split <;> rfl

/-- Settles O41. -/
theorem removalMakesTheToolAbsent : Obligations.RemovalMakesTheToolAbsent := by
  intro s h present
  refine .of_finish (exec_toolRemoval present) fun t e => ?_
  have flag : flagged .tool (toolGone h s) := flagged_raise ..
  obtain ⟨c, b, r, gone⟩ := toolGone_eq h s
  generalize toolGone h s = u at *
  have heads : u.heads = s.heads := by rw [gone]
  have head : ∀ k, u.head k = s.head k := fun k => congrArg (Four.get · k) heads
  have lead : u.lead h = s.lead h := lead_congr (congrArg Head.gang (head h))
  rw [lead] at e
  have unit : u.unit (s.lead h) = s.unit (s.lead h) := unit_congr (congrArg Head.gang (head _))
  have frame : Confined HeadId.all u (removalSeen (s.lead h) u) :=
    (removalSeen_worked (P := fun _ => True) (subset_all _)).frame
  have stop := removalSeen_stop (s.lead h) u
  have kept := stop.kept.trans e.stopKept
  have tool : ∀ k, t.tool k = u.tool k := fun k => congrArg (Four.get · k) kept.tools.1
  have own : t.tool h = (s.tool h).removal := by
    rw [tool, gone, State.tool, Four.get_set_same]
  have ends : ((removalSeen (s.lead h) u).sense h).tare = none ∧ ((removalSeen (s.lead h) u).sense h).tareValid = false :=
    removalSeen_tareless (by rw [gone, State.sense, Four.get_set_same]; exact (abandonTare_tare _).1)
      (by rw [gone, State.sense, Four.get_set_same])
  have seen : removalSeen (s.lead h) u = if (s.head (s.lead h)).state.inMotion then haltUnit .toolLost (s.lead h) u
      else if (s.head (s.lead h)).state.beforeStroke then refuse .refused .toolAbsent (s.lead h) u else u := by
    rw [removalSeen, head]
  rw [← e.sense] at ends
  refine ⟨?_, by rw [own]; rfl, by rw [own]; rfl, by rw [own]; rfl, by rw [own]; rfl, by rw [own]; rfl, by rw [own]; rfl,
    ends.2, ends.1, e.flagged (frame.flagged flag), ?_, fun moving => ?_, fun still before => ?_,
    fun o before order unfixed intact => ?_, fun k other => ?_, ?_, ?_⟩
  · rw [State.toolPresent, kept.inputs, gone]
    show (((s.inputs.toolPresent.set h (Line.settle false)).get h).level) = false
    rw [Four.get_set_same]
    rfl
  · have line : t.toolBus = lineCut h s := by rw [kept.tools.2, gone]
    rw [line, lineCut]
    split
    · exact ⟨rfl, rfl, rfl⟩
    · rfl
  · rw [seen, if_pos moving] at e
    have halted := haltedBy_haltUnit .toolLost (s.lead h) u
    rw [unit] at halted
    exact halted.of_ended e
  · rw [seen, if_neg (by simp [still]), if_neg (by simp [before])] at e
    rw [e.heads, heads]
  · have still : (s.head (s.lead h)).state.inMotion = false := by
      cases st : (s.head (s.lead h)).state <;> simp_all [HeadState.beforeStroke, HeadState.inMotion]
    rw [seen, if_neg (by simp [still]), if_pos before] at e
    exact (closingBare_ended (s := u) .refused .toolAbsent (by rw [head]; exact order) (by rw [head]; exact unfixed)
      (by rw [head]; exact intact)).of_ended e
  · rw [tool, gone, State.tool, Four.get_set_other _ _ other]
    rfl
  · rw [kept.claims, gone]
  · rw [e.reader, stop.reader, gone]

end Sys2Proof.Machine

/-! ## Tooling -/

namespace Sys2Proof.Machine

/-! ### A tool moved, and the heads told (R54, R58, R99) -/

theorem startPlan_stop (x : HeadId) (s : State) : StopTouched s (startPlan x s) := by
  unfold startPlan
  split
  · exact .rfl
  · exact (((modHead_press ..).trans (setPlan_press ..)).trans (requestRead_touches ..).press).stop

theorem startTares_stop (x : HeadId) (s : State) : StopTouched s (startTares x s) := by
  unfold startTares
  dsimp only
  split
  · exact startPlan_stop ..
  · exact ((modHead_press ..).trans (eachHead_press (fun h t => modSense_press h _ t) _ _)).stop

theorem lookTools_stop (x : HeadId) (s : State) : StopTouched s (lookTools x s) := by
  unfold lookTools
  split
  · exact .rfl
  · dsimp only
    split
    · exact .rfl
    · split
      · exact refuse_stop ..
      · split
        · exact startTares_stop ..
        · exact refuse_stop ..

theorem toolSeen_stop (h : HeadId) (s : State) : StopTouched s (toolSeen h s) := by
  unfold toolSeen
  dsimp only
  split
  · exact lookTools_stop ..
  · split
    · exact refuse_stop ..
    · exact .rfl

theorem changeTool_flagged {h : HeadId} {f : Tool → Tool} {s : State}
    (shown : (f (s.tool h)).state ≠ (s.tool h).state ∨ (f (s.tool h)).worn = true ∧ (s.tool h).worn = false) :
    flagged .tool (changeTool h f s) := by
  have turn : (s.tool h).state ≠ (f (s.tool h)).state ∨ (f (s.tool h)).worn = true ∧ (!(s.tool h).worn) = true := by
    rcases shown with state | ⟨worn, before⟩
    · exact .inl state.symm
    · exact .inr ⟨worn, by rw [before]; rfl⟩
  rw [changeTool]
  rw [if_pos turn]
  exact ((requestPart_worked (P := fun _ => True) (us := []) ..).frame).flagged (flagged_raise ..)

/-- What the change of a tool leaves, with all that the heads do when told. -/
structure ToolMoved (h : HeadId) (f : Tool → Tool) (s t : State) : Prop where
  tools : t.tools = s.tools.set h (f (s.tool h))
  toolBus : t.toolBus = s.toolBus
  claims : t.claims = s.claims
  inputs : t.inputs = s.inputs
  reader : t.reader = s.reader
  flag : (f (s.tool h)).state ≠ (s.tool h).state → flagged .tool t
  heads : (f (s.tool h)).state = (s.tool h).state → t.heads = s.heads

theorem moveTool_moved (h : HeadId) (f : Tool → Tool) (s : State) : ToolMoved h f s (moveTool h f s) := by
  have flag := changeTool_flagged (h := h) (f := f) (s := s)
  obtain ⟨c, b, r, changed⟩ := changeTool_eq h f s
  have own : (changeTool h f s).tool h = f (s.tool h) := by
    rw [State.tool, changeTool_tools, Four.get_set_same]
  by_cases same : (s.tool h).state = (f (s.tool h)).state
  · have moved : moveTool h f s = changeTool h f s := if_pos (by rw [own]; exact same)
    rw [moved, changed]
    exact ⟨rfl, rfl, rfl, rfl, rfl, fun other => absurd same.symm other, fun _ => rfl⟩
  · have moved : moveTool h f s = toolSeen h (changeTool h f s) := if_neg (by rw [own]; exact same)
    have raised := flag (.inl (Ne.symm same))
    have stop := toolSeen_stop h (changeTool h f s)
    have frame : Confined HeadId.all (changeTool h f s) (toolSeen h (changeTool h f s)) :=
      (toolSeen_worked (P := fun _ => True) (subset_all _)).frame
    have kept := stop.kept
    rw [moved]
    exact ⟨by rw [kept.tools.1, changed], by rw [kept.tools.2, changed], by rw [kept.claims, changed],
      by rw [kept.inputs, changed], by rw [stop.reader, changed], fun _ => frame.flagged raised,
      fun e => absurd e.symm same⟩

namespace ToolMoved
variable {h : HeadId} {f : Tool → Tool} {s u t : State} (m : ToolMoved h f s u)
include m

theorem own : u.tool h = f (s.tool h) := by rw [State.tool, m.tools, Four.get_set_same]

theorem other {k : HeadId} (other : k ≠ h) : u.tool k = s.tool k := by
  rw [State.tool, m.tools, Four.get_set_other _ _ other]
  rfl

end ToolMoved

theorem ToolMoved.of_ended {h : HeadId} {f : Tool → Tool} {s u t : State} (m : ToolMoved h f s u) (e : Ended u t) :
    ToolMoved h f s t :=
  ⟨e.tools.trans m.tools, e.toolBus.trans m.toolBus, e.claims.trans m.claims, e.inputs.trans m.inputs,
    e.reader.trans m.reader, fun n => e.flagged (m.flag n), fun n => e.heads.trans (m.heads n)⟩

/-! ### Attach (R96) -/

/-- A head whose tool is in IDENTIFY waits, or looks at tools other than this. -/
theorem toolSeen_identify {h : HeadId} {s : State} (identify : (s.tool h).state = .identify) :
    (toolSeen h s).sense h = s.sense h := by
  unfold toolSeen
  dsimp only
  split
  · by_cases mine : h ∈ s.unit (s.lead h)
    · have waits : lookTools (s.lead h) s = s := by
        unfold lookTools
        split
        · rfl
        · dsimp only
          rw [if_pos (by simpa using ⟨h, mine, identify⟩)]
      rw [waits]
    · exact ((lookTools_worked (P := fun _ => True) (List.Subset.refl _)).frame.others h mine).2.1
  · rw [identify]
    simp

/-- Settles O40. -/
theorem attachBeginsIdentification : Obligations.AttachBeginsIdentification := by
  intro s h absent
  let v := modSense h Sense.toolAttach (setPresent h true s)
  have acts : exec (.toolAttach h) s = finish (moveTool h Tool.attach v) := by
    show finish (if s.toolPresent h = true then s else _) = _
    rw [absent]
    rfl
  refine .of_finish acts fun t e => ?_
  have m := (moveTool_moved h Tool.attach v).of_ended e
  have own : t.tool h = (s.tool h).attach := m.own
  have sense : t.sense h = (s.sense h).toolAttach := by
    have before : v.sense h = (s.sense h).toolAttach := sense_modSense_same ..
    have changed : (changeTool h Tool.attach v).sense h = v.sense h := by
      obtain ⟨c, b, r, changed⟩ := changeTool_eq h Tool.attach v
      rw [changed]
      rfl
    have identify : ((changeTool h Tool.attach v).tool h).state = .identify := by
      rw [State.tool, changeTool_tools, Four.get_set_same]
      rfl
    rw [e.sense, ← before, ← changed]
    unfold moveTool
    dsimp only
    split
    · rfl
    · exact toolSeen_identify identify
  refine ⟨?_, by rw [own]; rfl, by rw [own]; rfl, by rw [own]; rfl, by rw [own]; rfl, by rw [own]; rfl, by rw [own]; rfl,
    by rw [own]; rfl, fun ch mem => ?_, by rw [sense]; rfl, by rw [sense]; rfl, fun other => m.flag (Ne.symm other),
    fun k other => m.other other, m.claims, m.toolBus⟩
  · rw [State.toolPresent, m.inputs]
    show (((s.inputs.toolPresent.set h (Line.settle true)).get h).level) = true
    rw [Four.get_set_same]
    rfl
  · rw [sense] at mem
    obtain ⟨c, _, rfl⟩ := List.mem_map.mp mem
    exact ⟨rfl, rfl, rfl⟩

end Sys2Proof.Machine

/-! ### Replies and failures on the tool bus (R98, R103, R106) -/

namespace Sys2Proof.Machine

theorem frameSum_fold (fs : List Frame) (a : Byte) :
    (fs.foldl (fun a f => a + f.data) a).toNat = (a.toNat + (fs.map (fun f => f.data.toNat)).sum) % 256 := by
  induction fs generalizing a with
  | nil => simp [Nat.mod_eq_of_lt a.isLt]
  | cons f fs ih =>
    rw [List.foldl_cons, ih, List.map_cons, List.sum_cons, BitVec.toNat_add]
    omega

theorem frameSum_eq_zero (fs : List Frame) : frameSum fs = 0 ↔ (fs.map (fun f => f.data.toNat)).sum % 256 = 0 := by
  have fold := frameSum_fold fs 0
  rw [show (0 : Byte).toNat = 0 from rfl, Nat.zero_add] at fold
  rw [← fold, frameSum]
  exact ⟨fun e => by rw [e]; rfl, fun e => BitVec.eq_of_toNat_eq e⟩

theorem replyPage_eq (b : Byte) : replyPage b = (b.extractLsb' 0 3).toNat := by
  rw [replyPage, BitVec.extractLsb'_toNat]
  rfl

/-- A reply succeeds when it meets none of R103's failures. -/
theorem succeeds_iff (w : Transaction) (frames : List Frame) : w.succeeds frames = true ↔ goodReply w frames := by
  cases frames with
  | nil => exact ⟨(nomatch ·), False.elim⟩
  | cons hd rest =>
    simp only [Transaction.succeeds, goodReply, Bool.and_eq_true, List.all_eq_true, Bool.not_eq_true', decide_eq_true_eq,
      frameSum_eq_zero, replyPage_eq, replyHalf, replyToggle, replyAck, replyComply, Bool.or_eq_true]
    cases w.write <;> cases hd.data.getLsbD 6 <;> simp <;> tauto

/-- The transaction on the bus has ended without discard: what its head's tool has become. -/
theorem endTransaction_moved (w : Transaction) (reply : Option (List Frame)) (s : State) (kept : w.discard = false) :
    ToolMoved w.head (reply.elim Tool.attemptFailed Tool.succeeded) (freeLine (if reply.isSome then 100 else 2000) s)
      (endTransaction w reply s) := by
  have going : ¬w.discard = true := by simp [kept]
  cases reply with
  | none =>
    rw [show endTransaction w none s = moveTool w.head Tool.attemptFailed (freeLine 2000 s) from if_neg going]
    exact moveTool_moved ..
  | some frames =>
    rw [show endTransaction w (some frames) s = moveTool w.head (Tool.succeeded frames) (freeLine 100 s) from if_neg going]
    exact moveTool_moved ..

theorem exec_toolReply {s : State} {w : Transaction} (line : s.toolBus.transaction = some w) (frames : List Frame) :
    exec (.toolReply frames) s = finish (endTransaction w (if w.succeeds frames then some frames else none) s) := by
  have acts : execToolReply frames s = finish (endTransaction w (if w.succeeds frames then some frames else none) s) := by
    simp only [execToolReply, line]
  exact acts

theorem exec_toolReplyTimeout {s : State} {w : Transaction} (line : s.toolBus.transaction = some w) :
    exec .toolReplyTimeout s = finish (endTransaction w none s) := by
  have acts : execToolReplyTimeout s = finish (endTransaction w none s) := by
    simp only [execToolReplyTimeout, line]
  exact acts

theorem blockReply_cons (hd : Frame) (rest : List Frame) : blockReply (hd :: rest) =
    { more := hd.data.getLsbD 4, data := (rest.take 16).map (·.data) } := rfl

theorem calEntries_eq (d : List Byte) : ∀ m n, calEntries d m n =
    (List.range' m n).map fun k => (u16At d (4 * k), u16At d (4 * k + 2))
  | _, 0 => rfl
  | m, n + 1 => by rw [calEntries, calEntries_eq d (m + 1) n, List.range'_succ, List.map_cons]

/-- A calibration block (R108). -/
theorem identified_cal (t : Tool) (r : BlockReply) (i : Nat) :
    let u := t.identified (.cal i) r
    let tines := List.range (min 4 (t.tines - 4 * i))
    let good := (∀ m ∈ tines, u16At r.data (4 * m) ≠ 0 ∧ u16At r.data (4 * m + 2) ≠ 0) ∧ r.more = true
    (good →
      u.gains = t.gains ++ tines.map (fun m => u16At r.data (4 * m)) ∧
      u.limits = t.limits ++ tines.map (fun m => u16At r.data (4 * m + 2)) ∧
      u.request = .identify (if 4 * (i + 1) < t.tines then .cal (i + 1) else .wear) ∧
      u.state = t.state ∧ u.toolType = t.toolType ∧ u.tines = t.tines ∧ u.toggle = t.toggle) ∧
    (¬good → u.state = .fault ∧ u.request = .none ∧ u.worn = false ∧ u.gains = t.gains ∧ u.limits = t.limits) := by
  intro u tines good
  have entries : calEntries r.data 0 (calTines t.tines i) = tines.map fun k => (u16At r.data (4 * k), u16At r.data (4 * k + 2)) := by
    rw [calEntries_eq, ← List.range_eq_range']
    rfl
  have passes : calOk (calEntries r.data 0 (calTines t.tines i)) r = true ↔ good := by
    rw [entries]
    simp [calOk, good]
  have becomes : u = if calOk (calEntries r.data 0 (calTines t.tines i)) r then
      { t.queue (.identify (nextCal t.tines (i + 1))) with
        gains := t.gains ++ (calEntries r.data 0 (calTines t.tines i)).map (·.1)
        limits := t.limits ++ (calEntries r.data 0 (calTines t.tines i)).map (·.2) }
      else t.toFault := rfl
  constructor
  · intro ok
    rw [becomes, if_pos (passes.mpr ok), entries, List.map_map, List.map_map]
    exact ⟨rfl, rfl, rfl, rfl, rfl, rfl, rfl⟩
  · intro bad
    rw [becomes, if_neg (mt passes.mp bad)]
    exact ⟨rfl, rfl, rfl, rfl, rfl⟩

/-- The wear block (R108). -/
theorem identified_wear (t : Tool) (r : BlockReply) :
    let u := t.identified .wear r
    (r.more = true → u.state = .fault ∧ u.request = .none ∧ u.worn = false) ∧
    (r.more = false →
      u.state = .ready ∧ u.request = .none ∧ u.retries = 0 ∧
      u.strokes = u32At r.data 0 ∧ u.wearLimit = u32At r.data 4 ∧
      (u.worn = true ↔ u32At r.data 4 ≠ 0 ∧ u32At r.data 4 ≤ u32At r.data 0) ∧
      u.gains = t.gains ∧ u.limits = t.limits ∧ u.toolType = t.toolType ∧ u.tines = t.tines) := by
  intro u
  constructor
  · intro more
    have becomes : u = t.toFault := if_pos more
    rw [becomes]
    exact ⟨rfl, rfl, rfl⟩
  · intro last
    have becomes : u = _ := if_neg (by rw [last]; decide)
    rw [becomes]
    exact ⟨rfl, rfl, rfl, rfl, rfl, by simp [Tool.wornNow], rfl, rfl, rfl, rfl⟩

/-- What an identification block leaves of the toggle and the retries. -/
theorem identified_line (b : ToolBlock) (r : BlockReply) (t : Tool) :
    (t.identified b r).toggle = t.toggle ∧ (t.identified b r).retries = 0 := by
  unfold Tool.identified
  cases b <;> dsimp only <;> split <;> exact ⟨rfl, rfl⟩

theorem wearWritten_line (t : Tool) : t.wearWritten.toggle = t.toggle ∧ t.wearWritten.retries = 0 ∧
    t.wearWritten.state = t.state ∧ t.wearWritten.strokes = t.strokes ∧
    t.wearWritten.request = (if t.identifyAfter then .identify .base else if t.wearAgain then .wearWrite else .none) := by
  unfold Tool.wearWritten
  split
  · exact ⟨rfl, rfl, rfl, rfl, rfl⟩
  · split <;> exact ⟨rfl, rfl, rfl, rfl, rfl⟩

theorem succeeded_line (frames : List Frame) (t : Tool) :
    (t.succeeded frames).toggle = !t.toggle ∧ (t.succeeded frames).retries = 0 := by
  unfold Tool.succeeded
  dsimp only
  split
  · exact ⟨rfl, rfl⟩
  · exact identified_line ..
  · obtain ⟨toggle, retries, _⟩ := wearWritten_line { t with toggle := !t.toggle, retries := 0 }
    exact ⟨toggle, retries⟩

/-- Settles O43. -/
theorem successfulReplyFlipsTheToggle : Obligations.SuccessfulReplyFlipsTheToggle := by
  refine ⟨fun s hd rest w line kept good => ?_, identified_cal, identified_wear⟩
  have acts := exec_toolReply line (hd :: rest)
  rw [if_pos ((succeeds_iff w (hd :: rest)).mpr good)] at acts
  refine .of_finish acts fun t e => ?_
  have m := (endTransaction_moved w (some (hd :: rest)) s kept).of_ended e
  have own : t.tool w.head = (s.tool w.head).succeeded (hd :: rest) := m.own
  obtain ⟨toggle, retries⟩ := succeeded_line (hd :: rest) (s.tool w.head)
  refine ⟨by rw [m.toolBus]; rfl, by rw [m.toolBus]; rfl, by rw [m.toolBus]; rfl, by rw [own, toggle], by rw [own, retries],
    fun b asked => ?_, fun asked => ?_, fun other => m.flag (by rw [← m.own]; exact other), fun k other => m.other other,
    m.claims, m.reader⟩
  · rw [own]
    simp only [Tool.succeeded, asked, blockReply_cons]
  · have becomes : t.tool w.head = { s.tool w.head with toggle := !(s.tool w.head).toggle, retries := 0 }.wearWritten := by
      rw [own]
      simp only [Tool.succeeded, asked]
    obtain ⟨_, _, state, strokes, request⟩ :=
      wearWritten_line { s.tool w.head with toggle := !(s.tool w.head).toggle, retries := 0 }
    rw [becomes]
    exact ⟨state, strokes, request⟩

/-- Settles O44. -/
theorem failedTransactions : Obligations.FailedTransactions := by
  refine ⟨fun s i w line kept told => ?_, fun s frame line idle => ?_, fun s i w line discarded told => ?_⟩
  · have acts : exec i s = finish (endTransaction w none s) := by
      rcases told with rfl | ⟨frames, rfl, bad⟩
      · exact exec_toolReplyTimeout line
      · rw [exec_toolReply line, if_neg (mt (succeeds_iff w frames).mp bad)]
    refine .of_finish acts fun t e => ?_
    have m := (endTransaction_moved w none s kept).of_ended e
    have own : t.tool w.head = (s.tool w.head).attemptFailed := m.own
    have becomes : (s.tool w.head).attemptFailed =
        if (s.tool w.head).retries < 3 then { s.tool w.head with retries := (s.tool w.head).retries + 1 }
        else if (s.tool w.head).identifyAfter then (s.tool w.head).queue (.identify .base)
        else (s.tool w.head).toFault := rfl
    have heads : (s.tool w.head).attemptFailed.state = (s.tool w.head).state → t.heads = s.heads := m.heads
    have flag : (s.tool w.head).attemptFailed.state ≠ (s.tool w.head).state → flagged .tool t := m.flag
    rw [becomes] at own heads flag
    refine ⟨by rw [m.toolBus]; rfl, by rw [m.toolBus]; rfl, by rw [m.toolBus]; rfl, ?_, ?_, m.claims⟩
    · rw [own]
      split
      · rfl
      · split <;> rfl
    · rw [own]
      by_cases few : (s.tool w.head).retries < 3
      · simp only [if_pos few] at heads ⊢
        exact ⟨trivial, trivial, trivial, heads trivial⟩
      · simp only [if_neg few] at heads flag ⊢
        by_cases after : (s.tool w.head).identifyAfter = true
        · simp only [if_pos after] at heads ⊢
          exact ⟨rfl, rfl, rfl, heads rfl⟩
        · simp only [if_neg after] at flag ⊢
          exact ⟨rfl, rfl, rfl, rfl, fun other => flag (Ne.symm other)⟩
  · have acts : exec (.frameAfterFailedTransaction frame) s = finish (freeLine 2000 s) := by
      show finish (if (s.toolBus.transaction.isNone && decide (s.toolBus.idleNeeded = 2000)) = true then _ else s) = _
      rw [line, idle]
      rfl
    refine .of_finish acts fun t e => ?_
    have bus : t.toolBus = { s.toolBus with idle := 0 } := by
      rw [e.toolBus, freeLine, ← line, ← idle]
    exact ⟨bus, e.control, e.sameHeads, e.tools, ⟨e.claims, e.claimMsgs, e.grants⟩, e.reader, e.inputs, e.sameBus⟩
  · have acts : ∃ needed, exec i s = finish (modTool w.head (Tool.queue (.identify .base)) (freeLine needed s)) := by
      have ends : ∀ reply, endTransaction w reply s =
          modTool w.head (Tool.queue (.identify .base)) (freeLine (if reply.isSome then 100 else 2000) s) :=
        fun reply => if_pos discarded
      rcases told with rfl | ⟨frames, rfl⟩
      · exact ⟨_, (exec_toolReplyTimeout line).trans (congrArg finish (ends none))⟩
      · exact ⟨_, (exec_toolReply line frames).trans (congrArg finish (ends _))⟩
    obtain ⟨needed, acts⟩ := acts
    refine .of_finish acts fun t e => ?_
    have own : t.tool w.head = (s.tool w.head).queue (.identify .base) := by
      rw [e.tool, tool_modTool_same]
      rfl
    refine ⟨by rw [e.toolBus]; rfl, by rw [e.toolBus]; rfl, by rw [own]; rfl, by rw [own]; rfl, by rw [own]; rfl,
      by rw [own]; rfl, fun k other => ?_, e.sameHeads, e.control, e.claims, e.reader⟩
    rw [e.tool, tool_modTool_other other]
    rfl

/-! ### Grants of the tool bus (R104) -/

theorem find?_of_takeWhile {α : Type} [DecidableEq α] {p : α → Bool} {a : α} (holds : p a = true) : ∀ l : List α, a ∈ l →
    (∀ b ∈ l.takeWhile (fun b => b ≠ a), p b = false) → l.find? p = some a
  | b :: l, mem, before => by
    by_cases own : b = a
    · subst own; simp [holds]
    · have fails : p b = false := before b (by simp [own])
      rw [List.find?_cons_of_neg (by simp [fails])]
      refine find?_of_takeWhile holds l (by simpa [Ne.symm own] using mem) fun c hc => before c ?_
      rw [List.takeWhile_cons_of_pos (by simpa using own)]
      exact List.mem_cons_of_mem _ hc

theorem HeadId.mem_round (l h : HeadId) : h ∈ [l.next, l.next.next, l.next.next.next, l] := by
  cases l <;> cases h <;> decide

theorem pending_iff (t : Tool) : t.pending = true ↔ t.request ≠ .none := by
  unfold Tool.pending
  cases t.request <;> simp

theorem transactionOf_some (h : HeadId) {t : Tool} (asked : t.request ≠ .none) : ∃ w, transactionOf h t = some w ∧
    w.head = h ∧ w.toggle = t.toggle ∧ w.discard = false ∧ (w.write = true ↔ t.request = .wearWrite) := by
  unfold transactionOf
  cases request : t.request with
  | none => exact absurd request asked
  | identify b => exact ⟨_, rfl, rfl, rfl, rfl, by simp⟩
  | wearWrite => exact ⟨_, rfl, rfl, rfl, rfl, by simp⟩

/-- A grant puts the transaction on the line, and latches the data of a wear write. -/
theorem grantTool_eq (h : HeadId) (s : State) : ∃ tools, grantTool h s = { s with
      tools := tools
      toolBus := { s.toolBus with lastGranted := h, transaction := transactionOf h (s.tool h), idle := 0 } } ∧
    ∀ k, (tools.get k).state = (s.tool k).state ∧ (tools.get k).request = (s.tool k).request := by
  unfold grantTool
  dsimp only
  split
  · refine ⟨(modTool h Tool.latchWear s).tools, rfl, fun k => ?_⟩
    show ((modTool h Tool.latchWear s).tool k).state = _ ∧ ((modTool h Tool.latchWear s).tool k).request = _
    by_cases own : k = h
    · subst own; rw [tool_modTool_same]; exact ⟨rfl, rfl⟩
    · rw [tool_modTool_other own]; exact ⟨rfl, rfl⟩
  all_goals exact ⟨s.tools, rfl, fun k => ⟨rfl, rfl⟩⟩

/-- Settles O42. -/
theorem toolBusServesTheNextHead : Obligations.ToolBusServesTheNextHead := by
  intro s idle h free waited asked before
  have next : s.nextToolHead = some h :=
    find?_of_takeWhile (p := fun k => (s.tool k).pending) ((pending_iff _).mpr asked) _ (HeadId.mem_round ..) fun k hk => by
      rw [Bool.eq_false_iff, ne_eq, pending_iff, not_not]
      exact before k (by simpa using hk)
  have acts : execToolBusGrant idle s = finish (grantTool h s) := by
    have due : (s.toolBus.transaction.isNone && decide (s.toolBus.idleNeeded ≤ s.toolBus.idle + idle)) = true := by
      simp [free, waited]
    simp only [execToolBusGrant, if_pos due, next]
  refine .of_finish acts fun t e => ?_
  obtain ⟨w, sent, head, toggle, discard, write⟩ := transactionOf_some h asked
  obtain ⟨tools, made, others⟩ := grantTool_eq h s
  rw [sent] at made
  rw [made] at e
  refine ⟨by rw [e.toolBus], ⟨w, by rw [e.toolBus], head, toggle, discard, write⟩, e.sameHeads,
    ⟨e.claims, e.claimMsgs, e.grants⟩, e.reader, e.control, fun k => ?_⟩
  rw [e.tool]
  exact others k

end Sys2Proof.Machine

/-! ## Board zones -/

namespace Sys2Proof.Machine

/-! ### The entries a pass looks at, oldest order first (R120) -/

theorem insertWaiter_eq (w : Waiter) : ∀ ws, insertWaiter w ws = ws.orderedInsert (fun v w => v.age ≤ w.age) w
  | [] => rfl
  | x :: xs => by rw [insertWaiter, insertWaiter_eq w xs, List.orderedInsert_cons]

/-- The order a pass takes its waiters in. -/
def ranked (c : Four Claim) : List Waiter := (waiters c).foldr insertWaiter []

theorem ranked_eq (c : Four Claim) : ranked c = (waiters c).insertionSort fun v w => v.age ≤ w.age := by
  unfold ranked List.insertionSort
  congr 1
  exact funext fun w => funext (insertWaiter_eq w)

theorem ranked_perm (c : Four Claim) : (ranked c).Perm (waiters c) := by
  rw [ranked_eq]
  exact List.perm_insertionSort ..

theorem ranked_sorted (c : Four Claim) : (ranked c).Pairwise fun v w => v.age ≤ w.age := by
  have total : Std.Total fun v w : Waiter => v.age ≤ w.age := ⟨fun v w => Nat.le_total v.age w.age⟩
  have trans : IsTrans Waiter fun v w => v.age ≤ w.age := ⟨fun _ _ _ => Nat.le_trans⟩
  rw [ranked_eq]
  exact List.pairwise_insertionSort ..

theorem mem_waiters {c : Four Claim} {w : Waiter} : w ∈ waiters c ↔ c.get w.head = .waiting w.low w.high w.age := by
  unfold waiters
  rw [List.mem_filterMap]
  constructor
  · rintro ⟨h, _, found⟩
    split at found
    · next entry => cases found; exact entry
    all_goals cases found
  · intro entry
    exact ⟨w.head, HeadId.mem_all _, by rw [entry]⟩

theorem mem_ranked {c : Four Claim} {w : Waiter} : w ∈ ranked c ↔ c.get w.head = .waiting w.low w.high w.age :=
  (ranked_perm c).mem_iff.trans mem_waiters

theorem ranked_heads (c : Four Claim) : (ranked c).Pairwise fun v w => v.head ≠ w.head := by
  have nodup : (waiters c).Nodup := by
    refine List.Nodup.filterMap (fun h k w hw kw => ?_) (by decide)
    split at hw <;> cases hw
    split at kw <;> cases kw
    rfl
  refine (((ranked_perm c).nodup_iff.mpr nodup).imp_of_mem fun {v w} hv hw apart same => apart ?_)
  have ev := mem_ranked.mp hv
  rw [same, mem_ranked.mp hw] at ev
  cases v; cases w; cases ev; cases same
  rfl

/-! ### A pass (R120) -/

/-- What becomes of one waiter in a pass from `s` over the waiters `ws`: granted, or still waiting for an entry
that was HELD, or that the pass has granted to an order not younger. -/
def Waiter.served (ws : List Waiter) (s t : State) (w : Waiter) : Prop :=
  t.claims.get w.head = .held w.low w.high ∧ t.grants.get w.head = some w.age ∨
  t.claims.get w.head = .waiting w.low w.high w.age ∧
    ∃ j l u, t.claims.get j = .held l u ∧ overlap w.low w.high l u = true ∧
      (s.claims.get j = .held l u ∨ ∃ v ∈ ws, v.head = j ∧ v.age ≤ w.age)

theorem passOver_serves (ws : List Waiter) (s : State) (sorted : ws.Pairwise fun v w => v.age ≤ w.age)
    (apart : ws.Pairwise fun v w => v.head ≠ w.head)
    (wait : ∀ w ∈ ws, s.claims.get w.head = .waiting w.low w.high w.age) :
    (∀ k, (∀ w ∈ ws, k ≠ w.head) → (passOver ws s).claims.get k = s.claims.get k ∧
      (passOver ws s).grants.get k = s.grants.get k) ∧
    ∀ w ∈ ws, w.served ws s (passOver ws s) := by
  induction ws generalizing s with
  | nil => exact ⟨fun _ _ => ⟨rfl, rfl⟩, by simp⟩
  | cons w ws ih =>
    obtain ⟨first, sorted⟩ := List.pairwise_cons.mp sorted
    obtain ⟨alone, apart⟩ := List.pairwise_cons.mp apart
    let u := if free s.claims w.low w.high then grantClaim w s else s
    have other : ∀ k, k ≠ w.head → u.claims.get k = s.claims.get k ∧ u.grants.get k = s.grants.get k := fun k ne => by
      dsimp only [u]
      split
      · exact ⟨Four.get_set_other _ _ ne, Four.get_set_other _ _ ne⟩
      · exact ⟨rfl, rfl⟩
    obtain ⟨keeps, serves⟩ := ih u sorted apart fun v hv => by
      rw [(other v.head (alone v hv).symm).1]
      exact wait v (List.mem_cons_of_mem _ hv)
    have turned : passOver (w :: ws) s = passOver ws u := rfl
    rw [turned]
    refine ⟨fun k away => ?_, fun v hv => ?_⟩
    · obtain ⟨claims, grants⟩ := keeps k fun v hv => away v (List.mem_cons_of_mem _ hv)
      obtain ⟨claims', grants'⟩ := other k (away w List.mem_cons_self)
      exact ⟨claims.trans claims', grants.trans grants'⟩
    rcases List.mem_cons.mp hv with rfl | later
    · obtain ⟨claims, grants⟩ := keeps v.head alone
      by_cases fits : free s.claims v.low v.high = true
      · have granted : u = grantClaim v s := if_pos fits
        have held : u.claims.get v.head = .held v.low v.high ∧ u.grants.get v.head = some v.age := by
          rw [granted]
          exact ⟨Four.get_set_same .., Four.get_set_same ..⟩
        exact .inl ⟨claims.trans held.1, grants.trans held.2⟩
      · have stays : u = s := if_neg fits
        have waits : u.claims.get v.head = .waiting v.low v.high v.age := by
          rw [stays]
          exact wait v List.mem_cons_self
        refine .inr ⟨claims.trans waits, ?_⟩
        obtain ⟨j, l, b, held, meets⟩ : ∃ j l b, s.claims.get j = .held l b ∧ overlap v.low v.high l b = true := by
          simpa [free_iff] using fits
        refine ⟨j, l, b, ?_, meets, .inl held⟩
        have away : ∀ x ∈ v :: ws, j ≠ x.head := fun x hx same => by
          rw [same, wait x hx] at held
          cases held
        rw [(keeps j fun x hx => away x (List.mem_cons_of_mem _ hx)).1, (other j (away v List.mem_cons_self)).1, held]
    · refine (serves v later).imp_right fun ⟨waits, j, l, b, held, meets, whence⟩ => ⟨waits, j, l, b, held, meets, ?_⟩
      rcases whence with before | ⟨x, hx, own, age⟩
      · by_cases own : j = w.head
        · exact .inr ⟨w, List.mem_cons_self, own.symm, first v later⟩
        · exact .inl ((other j own).1.symm.trans before)
      · exact .inr ⟨x, List.mem_cons_of_mem _ hx, own, age⟩

/-- What a pass leaves of one entry: HELD entries and empty ones stay, a waiter is granted or goes on waiting. -/
theorem pass_spec (s : State) (k : HeadId) :
    ((∀ l u a, s.claims.get k ≠ .waiting l u a) → (pass s).claims.get k = s.claims.get k) ∧
    ∀ l u a, s.claims.get k = .waiting l u a →
      Waiter.served (ranked s.claims) s (pass s) { head := k, low := l, high := u, age := a } := by
  obtain ⟨keeps, serves⟩ := passOver_serves (ranked s.claims) s (ranked_sorted _) (ranked_heads _) fun w => mem_ranked.mp
  refine ⟨fun settled => (keeps k fun w mem own => ?_).1, fun l u a waits => serves _ (mem_ranked.mpr waits)⟩
  rw [own, mem_ranked.mp mem] at settled
  exact settled w.low w.high w.age rfl

/-- What a release of `h` leaves of the table (R119, R120). -/
theorem arbiterRelease_spec (h : HeadId) (s : State) :
    (arbiterRelease h s).claims.get h = .empty ∧
    (∀ k l u, k ≠ h → s.claims.get k = .held l u → (arbiterRelease h s).claims.get k = .held l u) ∧
    (∀ k l u a, k ≠ h → s.claims.get k = .waiting l u a →
      (arbiterRelease h s).claims.get k = .waiting l u a ∨
        (arbiterRelease h s).claims.get k = .held l u ∧ (arbiterRelease h s).grants.get k = some a) ∧
    passMade h s (arbiterRelease h s) := by
  let v : State := { s with claims := s.claims.set h .empty }
  have own : v.claims.get h = .empty := Four.get_set_same ..
  have other : ∀ k, k ≠ h → v.claims.get k = s.claims.get k := fun k ne => Four.get_set_other _ _ ne
  have spec := pass_spec v
  have made : arbiterRelease h s = pass v := rfl
  rw [made]
  refine ⟨?_, fun k l u ne held => ?_, fun k l u a ne waits => ?_, fun k l u a waits => ?_⟩
  · rw [(spec h).1 (by simp [own]), own]
  · rw [(spec k).1 (by simp [other k ne, held]), other k ne, held]
  · rcases (spec k).2 l u a ((other k ne).trans waits) with ⟨claims, grants⟩ | ⟨claims, _⟩
    · exact .inr ⟨claims, grants⟩
    · exact .inl claims
  · have before : ∃ l u a, v.claims.get k = .waiting l u a := by
      by_contra none
      rw [(spec k).1 (by simpa using none)] at waits
      exact none ⟨l, u, a, waits⟩
    obtain ⟨l', u', a', waits'⟩ := before
    rcases (spec k).2 l' u' a' waits' with ⟨claims, _⟩ | ⟨claims, j, l2, u2, held, meets, whence⟩
    · rw [claims] at waits
      cases waits
    · rw [claims] at waits
      cases waits
      refine ⟨j, l2, u2, held, meets, ?_⟩
      have apart : ∀ c, v.claims.get j = c → c ≠ .empty → j ≠ h := fun c e ne same => ne (by rw [← e, same, own])
      rcases whence with before | ⟨w, mem, rfl, age⟩
      · have ne := apart _ before (by simp)
        exact .inl ⟨ne, (other j ne).symm.trans before⟩
      · have entry := mem_ranked.mp mem
        have ne := apart _ entry (by simp)
        have granted : w.low = l2 ∧ w.high = u2 := by
          rcases (spec w.head).2 _ _ _ entry with ⟨claims, _⟩ | ⟨claims, _⟩
          · rw [claims] at held
            cases held
            exact ⟨rfl, rfl⟩
          · rw [claims] at held
            cases held
        exact .inr ⟨w.age, by rw [← other _ ne, entry, granted.1, granted.2], age⟩

/-- The board's operations touch the claim table and the grants. -/
theorem board_same {s u t : State} (parts : ∃ c g, u = { s with claims := c, grants := g }) (e : Ended u t) :
    sameHeads s t ∧ sameTools s t ∧ t.reader = s.reader ∧ t.control = s.control ∧ t.claimMsgs = s.claimMsgs := by
  obtain ⟨c, g, rfl⟩ := parts
  exact ⟨e.sameHeads, ⟨e.tools, e.toolBus⟩, e.reader, e.control, e.claimMsgs⟩

theorem dropMsg_get {s : State} {h : HeadId} {m : ClaimMsg} {more : List ClaimMsg} (front : s.claimMsgs.get h = m :: more) :
    (dropMsg h s).claimMsgs.get h = more := by
  show (s.claimMsgs.set h (s.claimMsgs.get h).tail).get h = more
  rw [Four.get_set_same, front]
  rfl

/-- Settles O51. -/
theorem claimsAreAskedWithdrawnAndReleased : Obligations.ClaimsAreAskedWithdrawnAndReleased := by
  refine ⟨fun s h low high age more front => ?_, fun s h more => ⟨fun front => ?_, fun front => ?_⟩⟩
  · have acts : execClaimRequest h s = finish (arbiterRequest h low high age (dropMsg h s)) := by
      simp only [execClaimRequest, front]
    refine .of_finish acts fun t e => ?_
    obtain ⟨heads, tools, reader, control, msgs⟩ := board_same (arbiterRequest_eq h low high age (dropMsg h s)) e
    have free_eq := free_iff (dropMsg h s).claims low high
    refine ⟨by rw [msgs]; exact dropMsg_get front, fun k other => ?_, fun clear => ?_, fun k l u held meets => ?_, heads,
      tools, reader, control⟩
    · rw [e.claims, arbiterRequest]
      split <;> exact Four.get_set_other _ _ other
    · have granted : arbiterRequest h low high age (dropMsg h s) =
          grantClaim { head := h, low := low, high := high, age := age } (dropMsg h s) := if_pos (free_eq.mpr clear)
      rw [e.claims, e.grants, granted]
      exact ⟨Four.get_set_same .., Four.get_set_same ..⟩
    · have waits : arbiterRequest h low high age (dropMsg h s) =
          { dropMsg h s with claims := (dropMsg h s).claims.set h (.waiting low high age) } :=
        if_neg fun fits => by simp [free_eq.mp fits k l u held] at meets
      rw [e.claims, e.grants, waits]
      exact ⟨Four.get_set_same .., rfl⟩
  · have acts : execClaimWithdraw h s = finish (arbiterWithdraw h (dropMsg h s)) := by
      simp only [execClaimWithdraw, front]
    refine .of_finish acts fun t e => ?_
    obtain ⟨heads, tools, reader, _, msgs⟩ := board_same (arbiterWithdraw_eq h (dropMsg h s)) e
    have claims : (dropMsg h s).claims = s.claims := rfl
    refine ⟨by rw [msgs]; exact dropMsg_get front, ?_⟩
    rw [e.claims]
    cases entry : s.claims.get h with
    | empty =>
      have made : arbiterWithdraw h (dropMsg h s) = dropMsg h s := by
        simp only [arbiterWithdraw, claims, entry]
      rw [made]
      exact ⟨entry, fun _ k _ => rfl, fun k l u _ held => held, by simp, heads, tools, reader⟩
    | waiting l u a =>
      have made : arbiterWithdraw h (dropMsg h s) = { dropMsg h s with claims := s.claims.set h .empty } := by
        simp only [arbiterWithdraw, claims, entry]
      rw [made]
      exact ⟨Four.get_set_same .., fun _ k other => Four.get_set_other _ _ other,
        fun k l u other held => (Four.get_set_other _ _ other).trans held, by simp, heads, tools, reader⟩
    | held l u =>
      have made : arbiterWithdraw h (dropMsg h s) = arbiterRelease h (dropMsg h s) := by
        simp only [arbiterWithdraw, claims, entry]
      rw [made] at e ⊢
      obtain ⟨empty, held, _, pass⟩ := arbiterRelease_spec h (dropMsg h s)
      refine ⟨empty, fun none => absurd rfl (none l u), held, fun _ k l u a waits => ?_, heads, tools, reader⟩
      rw [e.claims] at waits ⊢
      exact pass k l u a waits
  · have acts : execClaimRelease h s = finish (arbiterRelease h (dropMsg h s)) := by
      simp only [execClaimRelease, front]
    refine .of_finish acts fun t e => ?_
    obtain ⟨heads, tools, reader, _, msgs⟩ := board_same (arbiterRelease_eq h (dropMsg h s)) e
    obtain ⟨empty, held, waits, pass⟩ := arbiterRelease_spec h (dropMsg h s)
    refine ⟨by rw [msgs]; exact dropMsg_get front, ?_⟩
    rw [e.claims, e.grants]
    refine ⟨empty, held, waits, fun k l u a still => ?_, heads, tools, reader⟩
    rw [e.claims] at still ⊢
    exact pass k l u a still

end Sys2Proof.Machine

/-! ## Starts (R60, R131 to R136) -/

namespace Sys2Proof.Machine

/-! ### The withdraw read made on leaving START_WAIT -/

/-- A head that reads its order's withdraw field for a start. -/
def Head.startReading (byPair : Bool) (m : Head) : Head :=
  { m with startRead := some byPair, releaseSeen := false, posLost := false }

/-- A start of one mode, by the lines or by the pair. -/
def startFor (mode : StartMode) (byPair : Bool) (x : HeadId) (s : State) : State :=
  if s.leads x && (s.head x).awaits mode && s.startClear x then readForStart byPair x s else s

theorem tryStart_eq : tryStart = startFor .auto false := rfl

theorem offerStart_eq : offerStart = startFor .operator true := rfl

theorem readForStart_of {x : HeadId} {s : State} {o : Order} (byPair : Bool) (order : (s.head x).current = some o) :
    readForStart byPair x s = requestRead (.startRead x) (withdrawOffset o.record) 1
      (modHead x (Head.startReading byPair) s) := by
  unfold readForStart
  rw [order]
  rfl

/-- What a start does at most: the head reads, and a request joins the bus. -/
theorem startFor_cases (mode : StartMode) (byPair : Bool) (x : HeadId) (s : State) :
    startFor mode byPair x s = s ∨
      ∃ b, startFor mode byPair x s = { modHead x (Head.startReading byPair) s with bus := b } ∧ s.bus ⊆ b := by
  unfold startFor
  split
  · unfold readForStart
    split
    · exact .inl rfl
    · exact .inr ⟨_, rfl, List.subset_append_left ..⟩
  · exact .inl rfl

theorem startFor_press (mode : StartMode) (byPair : Bool) (x : HeadId) (s : State) :
    PressTouched s (startFor mode byPair x s) := by
  rcases startFor_cases mode byPair x s with e | ⟨b, e, _⟩ <;> rw [e]
  · exact .rfl
  · exact ⟨_, s.senses, s.plans, s.control, b, s.rewrite, rfl⟩

theorem startFor_control (mode : StartMode) (byPair : Bool) (x : HeadId) (s : State) :
    (startFor mode byPair x s).control = s.control := by
  rcases startFor_cases mode byPair x s with e | ⟨b, e, _⟩
  · rw [e]
  · rw [e]
    rfl

theorem startFor_grows (mode : StartMode) (byPair : Bool) (x : HeadId) (s : State) :
    s.bus ⊆ (startFor mode byPair x s).bus := by
  rcases startFor_cases mode byPair x s with e | ⟨b, e, grows⟩ <;> rw [e]
  · exact fun _ h => h
  · exact grows

theorem startFor_head_other {x k : HeadId} (other : k ≠ x) (mode : StartMode) (byPair : Bool) (s : State) :
    (startFor mode byPair x s).head k = s.head k := by
  rcases startFor_cases mode byPair x s with e | ⟨b, e, _⟩
  · rw [e]
  · rw [e]
    exact head_modHead_other other ..

/-- No start changes a head but for its read. -/
theorem startFor_head (mode : StartMode) (byPair : Bool) (x : HeadId) (s : State) (k : HeadId) :
    ∃ a b c, (startFor mode byPair x s).head k = { s.head k with startRead := a, releaseSeen := b, posLost := c } := by
  have same : ∃ a b c, s.head k = { s.head k with startRead := a, releaseSeen := b, posLost := c } := ⟨_, _, _, rfl⟩
  by_cases own : k = x
  · subst own
    rcases startFor_cases mode byPair k s with e | ⟨b, e, _⟩ <;> rw [e]
    · exact same
    · exact ⟨some byPair, false, false, head_modHead_same ..⟩
  · rw [startFor_head_other own]
    exact same

theorem startFor_state (mode : StartMode) (byPair : Bool) (x : HeadId) (s : State) (k : HeadId) :
    ((startFor mode byPair x s).head k).state = (s.head k).state := by
  obtain ⟨a, b, c, e⟩ := startFor_head mode byPair x s k
  rw [e]

/-- The head reads its order's withdraw field for a start. -/
def startAsked (byPair : Bool) (x : HeadId) (o : Order) (t : State) : Prop :=
  (t.head x).startRead = some byPair ∧ reads (.startRead x) (withdrawOffset o.record) 1 t

theorem startFor_starts {mode : StartMode} {byPair : Bool} {x : HeadId} {s : State} {o : Order}
    (ready : readyToStart mode s x o) (guard : s.guardOpen = false) (estop : s.estopActive = false) :
    startAsked byPair x o (startFor mode byPair x s) := by
  obtain ⟨leads, state, unfixed, idle, order, asks, positions⟩ := ready
  have awaits : (s.head x).awaits mode = true := by
    simp [Head.awaits, state, unfixed, idle, order, asks]
  have starts : startFor mode byPair x s = readForStart byPair x s := by
    rw [startFor, leads, awaits, State.startClear, guard, estop, positions]
    rfl
  rw [starts, readForStart_of byPair order]
  exact ⟨congrArg Head.startRead (head_modHead_same ..), reads_requestRead ..⟩

/-- In a round of starts each head that is ready reads. -/
theorem eachLead_starts {mode : StartMode} {byPair : Bool} {x : HeadId} {s : State} {o : Order}
    (ready : readyToStart mode s x o) (guard : s.guardOpen = false) (estop : s.estopActive = false) :
    startAsked byPair x o (eachLead (startFor mode byPair) s) := by
  let turn := fun h t => if State.leads t h then startFor mode byPair h t else t
  let before := fun t : State => t.inputs = s.inputs ∧ t.control = s.control ∧ t.head x = s.head x
  have inputs : ∀ h t, (turn h t).inputs = t.inputs ∧ (turn h t).control = t.control ∧ t.bus ⊆ (turn h t).bus ∧
      (x ≠ h → (turn h t).head x = t.head x) := fun h t => by
    dsimp only [turn]
    split
    · exact ⟨(startFor_press ..).stands.2.2.2, startFor_control .., startFor_grows .., fun ne => startFor_head_other ne ..⟩
    · exact ⟨rfl, rfl, fun _ h => h, fun _ => rfl⟩
  have persists : ∀ h t, x ≠ h → startAsked byPair x o t → startAsked byPair x o (turn h t) := fun h t ne asked => by
    obtain ⟨_, control, grows, head⟩ := inputs h t
    exact ⟨by rw [head ne]; exact asked.1, asked.2.of_grows grows control⟩
  have own : ∀ t, before t ∨ startAsked byPair x o t → startAsked byPair x o (turn x t) := fun t either => by
    obtain ⟨leads, state, unfixed, idle, order, asks, positions⟩ := ready
    rcases either with ⟨input, control, head⟩ | asked
    · have leads' : t.leads x = true := by rw [leads_iff, head]; exact leads_iff.mp leads
      have unit : t.unit x = s.unit x := unit_congr (congrArg Head.gang head)
      have pos : t.posReady = s.posReady := by
        funext k
        simp only [State.posReady, input]
      show startAsked byPair x o (if t.leads x then startFor mode byPair x t else t)
      rw [if_pos leads']
      refine startFor_starts ⟨leads', by rw [head]; exact state, by rw [head]; exact unfixed, by rw [head]; exact idle,
        by rw [head]; exact order, asks, by rw [unit, pos]; exact positions⟩ ?_ ?_
      · simp only [State.guardOpen, input]; exact guard
      · simp only [State.estopActive, input]; exact estop
    · have busy : (t.head x).awaits mode = false := by simp [Head.awaits, asked.1]
      show startAsked byPair x o (if t.leads x then startFor mode byPair x t else t)
      rw [startFor, busy]
      simpa using asked
  exact (eachHead_sets (I := fun t => before t ∨ startAsked byPair x o t) (Q := fun k t => k = x → startAsked byPair x o t)
    (fun h t either => by
      by_cases ne : x = h
      · subst ne; exact .inr (own t either)
      · rcases either with ⟨input, control, head⟩ | asked
        · obtain ⟨i, c, _, same⟩ := inputs h t
          exact .inl ⟨i.trans input, c.trans control, (same ne).trans head⟩
        · exact .inr (persists h t ne asked))
    (fun h t either e => by subst e; exact own t either)
    (fun h k t other _ asked e => by subst e; exact persists h t other (asked rfl))
    HeadId.all (.inl ⟨rfl, rfl, rfl⟩) x.mem_all) rfl

theorem eachLead_state {f : HeadId → State → State} (one : ∀ h s k, ((f h s).head k).state = (s.head k).state) (s : State)
    (k : HeadId) : ((eachLead f s).head k).state = (s.head k).state :=
  eachLead_keeps (fun t => (t.head k).state) (fun h t => one h t k) s

/-! ### The pair, GUARD and POS_READY -/

/-- The buttons, the MASK lines and the pair after a press. -/
def pressed (a b : Bool) (mask : BitVec 4) (i : Inputs) : Inputs :=
  { i with
    startA := i.startA.take a, startB := i.startB.take b
    masks := ⟨i.masks.a0.take (mask.getLsbD 0), i.masks.a1.take (mask.getLsbD 1),
      i.masks.a2.take (mask.getLsbD 2), i.masks.a3.take (mask.getLsbD 3)⟩
    pair := pairPressed (b && !i.startB.level) (a && !i.startA.level && b && !i.startB.level) i.pair }

theorem pairPress_eq (bPressed both : Bool) (s : State) : pairPress bPressed both s =
    (if pairCompleted both s.inputs.pair then pairCompletes else id)
      (setPair (pairPressed bPressed both s.inputs.pair) s) := by
  unfold pairPress
  cases pair : s.inputs.pair with
  | ready => cases both <;> rfl
  | oneDown bFirst window => by_cases early : window ≤ 500 <;> simp [pairCompleted, pairPressed, early]
  | spent =>
    have same : setPair .spent s = s := by
      rw [setPair, modInputs, ← pair]
    simp [pairCompleted, pairPressed, same]

theorem pressed_mask (a b : Bool) (mask : BitVec 4) (i : Inputs) (n : HeadId) :
    (pressed a b mask i).masks.get n = (i.masks.get n).take (mask.getLsbD n.toNat) := by
  cases n <;> rfl

/-- A selected MASK line is active (R133). -/
theorem maskActive_iff {s : State} {mask : BitVec 4} (levels : ∀ n : HeadId, (s.inputs.masks.get n).level = mask.getLsbD n.toNat) :
    s.maskActive = false ↔ mask &&& s.setup.startMask = 0 := by
  have bits : s.maskActive = false ↔ ∀ n : HeadId, (mask &&& s.setup.startMask).getLsbD n.toNat = false := by
    simp only [State.maskActive, List.any_eq_false, HeadId.mem_all, forall_const, levels, BitVec.getLsbD_and, Bool.not_eq_true]
    exact forall_congr' fun n => by rw [Bool.and_comm]
  rw [bits]
  constructor
  · intro off
    refine BitVec.eq_of_getLsbD_eq fun i small => ?_
    obtain ⟨n, _, rfl⟩ := HeadId.ofNat?_some (n := i) (by omega)
    rw [off n]
    simp
  · intro none n
    rw [none]
    simp

/-- Settles O36. -/
theorem autoAndOperatorStarts : Obligations.AutoAndOperatorStarts := by
  refine ⟨fun s estop => ⟨fun opened => ?_, fun h low => ?_⟩, fun s => ⟨fun a b mask rises moved => ?_,
    fun bFirst window pair late => ?_⟩⟩
  · let u := raise .safe (setGuard false s)
    have acts : exec .guardClose s = finish (eachLead (startFor .auto false) u) := by
      show finish (if s.guardOpen = true then _ else s) = _
      rw [if_pos opened]
      rfl
    obtain ⟨tools, board, reader, inputs⟩ := (eachLead_press (startFor_press .auto false) u).stands
    have control := eachLead_keeps State.control (startFor_control .auto false) u
    refine .of_finish acts fun t e => ⟨?_, ?_, fun k => ?_, fun x o ready => ?_,
      ⟨e.tools.trans tools.1, e.toolBus.trans tools.2⟩,
      ⟨e.claims.trans board.1, e.claimMsgs.trans board.2.1, e.grants.trans board.2.2⟩, e.reader.trans reader⟩
    · rw [State.guardOpen, e.inputs, inputs]
      rfl
    · exact e.flagged (by rw [flagged, control]; exact flagged_raise ..)
    · rw [e.head, eachLead_state (startFor_state .auto false)]
      rfl
    · obtain ⟨read, asked⟩ := eachLead_starts (byPair := false) (s := u) (o := o) ready rfl estop
      exact ⟨by rw [e.head]; exact read, e.reads (by simp) (by simp) asked⟩
  · let u := setPosReady h true s
    have acts : exec (.posReadyRise h) s = finish (startFor .auto false (s.lead h) u) := by
      show finish (if s.posReady h = true then s else _) = _
      rw [low]
      rfl
    obtain ⟨tools, board, reader, inputs⟩ := (startFor_press .auto false (s.lead h) u).stands
    refine .of_finish acts fun t e => ⟨?_, fun k => ?_, fun o guard ready => ?_,
      ⟨e.tools.trans tools.1, e.toolBus.trans tools.2⟩,
      ⟨e.claims.trans board.1, e.claimMsgs.trans board.2.1, e.grants.trans board.2.2⟩, e.reader.trans reader⟩
    · rw [State.posReady, e.inputs, inputs]
      show ((s.inputs.posReady.set h (Line.settle true)).get h).level = true
      rw [Four.get_set_same]
      rfl
    · rw [e.head, startFor_state]
      rfl
    · obtain ⟨read, asked⟩ := startFor_starts (byPair := false) (s := u) (o := o) ready guard estop
      exact ⟨by rw [e.head]; exact read, e.reads (by simp) (by simp) asked⟩
  · let both := a && !s.inputs.startA.level && b && !s.inputs.startB.level
    let u : State := { s with inputs := pressed a b mask s.inputs }
    have acts : exec (.startPress a b mask) s =
        finish ((if pairCompleted both s.inputs.pair then pairCompletes else id) u) := by
      have taken : ¬((s.inputs.startA.level && !a || s.inputs.startB.level && !b ||
          (decide (a = s.inputs.startA.level) && decide (b = s.inputs.startB.level))) = true) := by
        obtain ⟨riseA, riseB⟩ := rises
        revert riseA riseB moved
        cases a <;> cases b <;> cases s.inputs.startA.level <;> cases s.inputs.startB.level <;> decide
      show finish (if _ then s else pairPress _ both (setStarts a b (setMasks mask s))) = _
      rw [if_neg taken, pairPress_eq]
      rfl
    have levels : ∀ n : HeadId, (u.inputs.masks.get n).level = mask.getLsbD n.toNat := fun n => by
      rw [show u.inputs.masks.get n = _ from pressed_mask a b mask s.inputs n, Line.take_level]
    have starts : pairCompletes u = if s.guardOpen = false ∧ mask &&& s.setup.startMask = 0 then
        eachLead (startFor .operator true) u else u := by
      have masks : u.maskActive = false ↔ mask &&& s.setup.startMask = 0 := maskActive_iff levels
      have guard : u.guardOpen = s.guardOpen := rfl
      by_cases valid : s.guardOpen = false ∧ mask &&& s.setup.startMask = 0
      · rw [if_pos valid, pairCompletes, guard, valid.1, masks.mpr valid.2, offerStart_eq]
        rfl
      · have blocked : (u.guardOpen || u.maskActive) = true := by
          rw [guard]
          by_contra clear
          obtain ⟨closed, quiet⟩ := Bool.or_eq_false_iff.mp (Bool.eq_false_iff.mpr clear)
          exact valid ⟨closed, masks.mp quiet⟩
        rw [if_neg valid, pairCompletes, if_pos blocked]
    have shape : (if pairCompleted both s.inputs.pair then pairCompletes else id) u =
        if pairCompleted both s.inputs.pair = true ∧ s.guardOpen = false ∧ mask &&& s.setup.startMask = 0 then
          eachLead (startFor .operator true) u else u := by
      cases pairCompleted both s.inputs.pair
      · simp
      · simpa using starts
    rw [shape] at acts
    refine .of_finish acts fun t e => ?_
    have press : PressTouched u (if pairCompleted both s.inputs.pair = true ∧ s.guardOpen = false ∧
        mask &&& s.setup.startMask = 0 then eachLead (startFor .operator true) u else u) := by
      split
      · exact eachLead_press (startFor_press .operator true) u
      · exact .rfl
    obtain ⟨tools, board, reader, inputs⟩ := press.stands
    have inputs' : t.inputs = pressed a b mask s.inputs := e.inputs.trans inputs
    refine ⟨by rw [inputs']; exact Line.take_level .., by rw [inputs']; exact Line.take_level ..,
      fun same => by rw [inputs']; exact Line.take_same same, fun same => by rw [inputs']; exact Line.take_same same,
      fun n same => ?_, by rw [inputs']; rfl, fun k => ?_, ?_, ⟨e.tools.trans tools.1, e.toolBus.trans tools.2⟩,
      ⟨e.claims.trans board.1, e.claimMsgs.trans board.2.1, e.grants.trans board.2.2⟩, e.reader.trans reader, ?_⟩
    · rw [inputs', pressed_mask, Line.take_same same]
    · rw [e.head]
      split
      · exact eachLead_state (startFor_state .operator true) u k
      · rfl
    · split
      · next valid =>
        rw [if_pos valid] at e
        intro x o estop ready
        obtain ⟨read, asked⟩ := eachLead_starts (byPair := true) (s := u) (o := o) ready valid.2.1 estop
        exact ⟨by rw [e.head]; exact read, e.reads (by simp) (by simp) asked⟩
      · next invalid =>
        rw [if_neg invalid] at e
        exact e.heads
    · rw [e.control]
      split
      · exact eachLead_keeps State.control (startFor_control .operator true) u
      · rfl
  · have acts : execPairWindowExpire s = finish (setPair .spent s) := by
      simp only [execPairWindowExpire, pair, if_pos late]
    refine .of_finish acts fun t e => ⟨by rw [e.inputs]; rfl, e.control, e.sameHeads, ⟨e.tools, e.toolBus⟩,
      ⟨e.claims, e.claimMsgs, e.grants⟩, e.reader, e.sameBus⟩

end Sys2Proof.Machine

/-! ## Taking, the grant and the entry to APPROACH -/

namespace Sys2Proof.Machine

/-! ### Taking (R51, R52) -/

theorem takeable_of {s : State} {h : HeadId} {o : Order} (running : s.control.device = .running)
    (going : s.control.aborting = false) (idle : (s.head h).state = .idle) (front : s.reader.front h = some o)
    (mine : o.head = h) (pair : o.ganged = true → h = h.primary ∧ (s.head h.companion).state = .idle ∧
      ∃ p, s.reader.front h.companion = some p ∧ p.age = o.age) : s.takeable h = some o := by
  have named : o.head = h ∧ (o.ganged = true → h.even = true ∧ (s.head h.companion).state = .idle ∧
      (s.reader.front h.companion).map (·.age) = some o.age) := by
    refine ⟨mine, fun ganged => ?_⟩
    obtain ⟨even, other, p, fetched, age⟩ := pair ganged
    exact ⟨by simpa [HeadId.even] using even, other, by rw [fetched, Option.map_some, age]⟩
  unfold State.takeable
  rw [State.running, running, going, idle, front]
  exact if_pos named

/-- Settles O46. -/
theorem takingBeginsPrepare : Obligations.TakingBeginsPrepare := by
  intro s h o running going idle front mine pair
  have can := takeable_of running going idle front mine pair
  have acts : execTakeOrder h s = finish (takeUp h o s) := by
    simp only [execTakeOrder, can]
  have even : o.ganged = true → h = h.primary := fun ganged => (pair ganged).1
  have head := head_takeUp mine even s
  obtain ⟨m, taken⟩ := takenAt_parts h o s
  have press : PressTouched (takenAt h o s) (takeUp h o s) :=
    (enterState_press .prepare h (takenAt h o s)).trans (requestWrite_touches ..).press
  obtain ⟨tools, board, reader, inputs⟩ := press.stands
  have asked : writes (.activeWrite h) (statusOffset o.record) [statusActive] (takeUp h o s) := by
    rw [takeUp_eq]
    exact writes_requestWrite ..
  rw [taken] at tools board reader
  refine .of_finish acts fun t e => ⟨fun k hk => ?_, ?_, e.writes (by simp) (by simp) asked, fun k hk => ?_, ?_,
    e.claims.trans board.1, ⟨e.tools.trans tools.1, e.toolBus.trans tools.2⟩⟩
  · rw [e.head, head, if_pos hk]
    exact ⟨rfl, rfl, rfl, rfl, rfl, rfl, rfl⟩
  · rw [e.head, head, if_pos (mine ▸ o.mem_heads_head), if_pos rfl]
    rfl
  · rw [e.head, head, if_neg hk]
  · rw [e.reader, reader]
    rfl

/-! ### The grant (R117) -/

theorem startFor_claim (mode : StartMode) (byPair : Bool) (x : HeadId) (s : State) (k : HeadId) :
    ((startFor mode byPair x s).head k).claim = (s.head k).claim := by
  obtain ⟨a, b, c, e⟩ := startFor_head mode byPair x s k
  rw [e]

theorem wantsGrant_iff (m : Head) (age : Nat) : m.wantsGrant age = true ↔
    m.state = .zoneWait ∧ m.claim = .requested ∧ m.current.map (·.age) = some age := by
  unfold Head.wantsGrant
  cases m.current <;> simp [and_assoc]

/-- Settles O52. -/
theorem grantEntersStartWait : Obligations.GrantEntersStartWait := by
  intro s h age sent
  let u : State := { s with grants := s.grants.set h none }
  let v := modHead h (fun m => { m with claim := .held }) u
  have wants : (u.head h).wantsGrant age = true ↔
      (s.head h).state = .zoneWait ∧ (s.head h).claim = .requested ∧ (s.head h).current.map (·.age) = some age :=
    wantsGrant_iff (s.head h) age
  have acts : execClaimGrant h s = finish (if (u.head h).wantsGrant age = true then
      startFor .auto false h (enterState .startWait h v) else u) := by
    simp only [execClaimGrant, sent]
    rfl
  by_cases waits : (s.head h).state = .zoneWait ∧ (s.head h).claim = .requested ∧ (s.head h).current.map (·.age) = some age
  · rw [if_pos (wants.mpr waits)] at acts
    have press : PressTouched v (startFor .auto false h (enterState .startWait h v)) :=
      (enterState_press ..).trans (startFor_press ..)
    obtain ⟨tools, board, reader, inputs⟩ := press.stands
    have unit : v.unit h = s.unit h :=
      unit_congr (by rw [show v.head h = _ from head_modHead_same ..]; rfl)
    refine .of_finish acts fun t e => ⟨?_, e.claims.trans board.1, ⟨e.tools.trans tools.1, e.toolBus.trans tools.2⟩,
      e.reader.trans reader, ?_⟩
    · rw [e.grants, board.2.2]
      exact Four.get_set_same ..
    rw [if_pos waits]
    refine ⟨fun k mine => ?_, ?_⟩
    · rw [e.head, startFor_state, head_enterState, unit, if_pos mine]
      rfl
    · rw [e.head, startFor_claim, head_enterState, unit, if_pos (mem_unit_self s h)]
      exact congrArg Head.claim (head_modHead_same ..)
  · rw [if_neg (mt wants.mp waits)] at acts
    refine .of_finish acts fun t e => ⟨?_, e.claims, ⟨e.tools, e.toolBus⟩, e.reader, ?_⟩
    · rw [e.grants]
      exact Four.get_set_same ..
    rw [if_neg waits]
    exact e.sameHeads

/-! ### The entry to APPROACH (R60, R61, R80) -/

theorem enterState_senses (st : HeadState) (x : HeadId) (s : State) : (enterState st x s).senses = s.senses := by
  have put : ∀ hs t, (eachHead (putState st) hs t).senses = t.senses := fun hs t =>
    eachHead_keeps (P := fun u => u.senses = t.senses) (fun h u e => by
      obtain ⟨b, r, put⟩ := putState_eq st h u
      rw [put]
      exact e) hs t rfl
  exact (eachModHead_senses ..).trans (put ..)

/-- One head as its unit enters a state with its guards armed. -/
def Head.armed (st : HeadState) (d : Drive) (interval : Nat) (m : Head) : Head :=
  { ({ m with state := st } : Head).drive d with guardArmed := true, guardCount := interval }

theorem head_armed (st : HeadState) (x : HeadId) (s : State) (k : HeadId) :
    (armGuards x (enterState st x s)).head k = if k ∈ s.unit x then
      (s.head k).armed st (driveOf (s.head x).current (s.setup.fullScale.get x) st) (s.setup.guardInterval.get k)
      else s.head k := by
  have entered := head_enterState st x s
  have unit : (enterState st x s).unit x = s.unit x := unit_congr (by rw [entered]; split <;> rfl)
  rw [armGuards, eachHead_modHead (fun h m => { m with guardArmed := true, guardCount := (enterState st x s).setup.guardInterval.get h }) _ _ (unit_nodup _ _),
    unit, enterState_setup, entered]
  split <;> rfl

/-- One head at its entry to APPROACH. -/
def Head.begun (byPair : Bool) (rows : Nat) (d : Drive) (interval : Nat) (m : Head) : Head :=
  (m.armed .approach d interval).approach byPair rows

theorem beginApproach_spec (byPair : Bool) (x : HeadId) (s : State) (k : HeadId) :
    (beginApproach byPair x s).head k = (if k ∈ s.unit x then
      (s.head k).begun byPair (rowSizeOf (s.unitTines x))
        (driveOf (s.head x).current (s.setup.fullScale.get x) .approach) (s.setup.guardInterval.get k) else s.head k) ∧
    (beginApproach byPair x s).sense k = (if k ∈ s.unit x then
      (s.sense k).approach (decide (k = x)) (orderSpeed (s.head x).current (·.samplePitch)) else s.sense k) := by
  unfold beginApproach
  extract_lets pitch rows a b c
  have unitA : a.unit x = s.unit x := unit_congr rfl
  have headB : ∀ j, b.head j = if j ∈ s.unit x then
      (s.head j).armed .approach (driveOf (s.head x).current (s.setup.fullScale.get x) .approach) (s.setup.guardInterval.get j)
      else s.head j := fun j => by
    rw [show b.head j = _ from head_armed .approach x a j, unitA]
    rfl
  have unitB : b.unit x = s.unit x := unit_congr (by rw [headB]; split <;> rfl)
  have headC : ∀ j, c.head j = if j ∈ s.unit x then (b.head j).approach byPair rows else b.head j := fun j => by
    rw [show c.head j = _ from eachHead_modHead (fun _ => Head.approach byPair rows) _ b (unit_nodup b x) j, unitB]
  have unitC : c.unit x = s.unit x := unit_congr (by rw [headC, headB]; (repeat' split) <;> rfl)
  have senseC : c.senses = s.senses :=
    (eachModHead_senses ..).trans ((eachModHead_senses ..).trans (enterState_senses ..))
  constructor
  · have heads := eachModSense_heads (fun h => Sense.approach (decide (h = x)) pitch) (c.unit x) c
    refine (congrArg (Four.get · k) heads).trans ((headC k).trans ?_)
    rw [headB]
    split <;> rfl
  · rw [eachHead_modSense (fun h => Sense.approach (decide (h = x)) pitch) _ c (unit_nodup c x) k, unitC]
    simp only [State.sense, senseC]
    rfl

/-- POS_READY fallen during the withdraw read, or not asserted on every head at its end (R60). -/
def State.positionGone (s : State) (x : HeadId) : Bool := (s.head x).posLost || !(s.unit x).all s.posReady

/-- The entry to APPROACH, or the halt found there (R60, R68, R135, log 10). -/
theorem enterApproach_cases (byPair : Bool) (x : HeadId) (s : State) :
    (s.positionGone x = false ∧ (byPair && (s.head x).releaseSeen) = false ∧
      enterApproach byPair x s = beginApproach byPair x s) ∨
    ∃ why c, enterApproach byPair x s = haltUnit why x { beginApproach byPair x s with choices := c } ∧
      (why = .positionLost ∧ s.positionGone x = true ∨
        why = .startReleased ∧ (byPair && (s.head x).releaseSeen) = true) := by
  have shape : enterApproach byPair x s = match s.positionGone x, byPair && (s.head x).releaseSeen with
    | false, false => beginApproach byPair x s
    | true, false => haltUnit .positionLost x (beginApproach byPair x s)
    | false, true => haltUnit .startReleased x (beginApproach byPair x s)
    | true, true =>
      haltUnit (if Config.freeChoice (beginApproach byPair x s).choices % 2 = 0 then .positionLost else .startReleased) x
        { beginApproach byPair x s with choices := (beginApproach byPair x s).choices + 1 } := by rfl
  generalize s.positionGone x = lost at shape ⊢
  generalize (byPair && (s.head x).releaseSeen) = released at shape ⊢
  cases lost <;> cases released
  · exact .inl ⟨rfl, rfl, shape⟩
  · exact .inr ⟨_, _, shape, .inr ⟨rfl, rfl⟩⟩
  · exact .inr ⟨_, _, shape, .inl ⟨rfl, rfl⟩⟩
  · refine .inr ⟨_, _, shape, ?_⟩
    split
    · exact .inl ⟨rfl, rfl⟩
    · exact .inr ⟨rfl, rfl⟩

/-- The read for a start, at a head that waits. -/
theorem startFound_of {x : HeadId} {s : State} (waits : (s.head x).state = .startWait) :
    startFound x none s = refuse .refused .memory x s ∧
    (∀ v, v ≠ 0 → startFound x (some v) s = refuse .withdrawn .none x s) ∧
    startFound x (some 0) s = if s.guardOpen then
      modHead x (fun m => { m with startRead := none, releaseSeen := false, posLost := false }) s
      else enterApproach ((s.head x).startRead.getD false) x s := by
  refine ⟨?_, fun v other => ?_, ?_⟩
  · simp only [startFound, if_pos waits]
  · simp only [startFound, if_pos waits, if_pos other]
  · simp [startFound, waits]

/-- Settles O50. -/
theorem startReadEntersApproach : Obligations.StartReadEntersApproach := by
  intro s h o flight waits order leads
  obtain ⟨rest, run⟩ := onComplete_live flight
  obtain ⟨lost, withdrawn, found⟩ := startFound_of (x := h) (s := s.withBus rest) waits
  refine ⟨fun opened => ?_, fun closed positions stayed held => ?_, fun closed cause => ?_, fun unfixed intact =>
    ⟨fun v other => ?_, ?_⟩⟩
  · rw [if_pos (show (s.withBus rest).guardOpen = true from opened)] at found
    refine .of_finish (congrArg finish ((run _).trans found)) fun t e => ?_
    rw [e.head, head_modHead_same]
    exact ⟨waits, rfl, rfl, rfl, e.claims⟩
  · rw [if_neg (by rw [show (s.withBus rest).guardOpen = s.guardOpen from rfl, closed]; decide)] at found
    rcases enterApproach_cases ((s.head h).startRead.getD false) h (s.withBus rest) with
      ⟨_, _, enters⟩ | ⟨why, c, _, cause⟩
    · rw [show ((s.withBus rest).head h).startRead = (s.head h).startRead from rfl, enters] at found
      refine .of_finish (congrArg finish ((run _).trans found)) fun t e => ?_
      have frame : Confined HeadId.all (s.withBus rest) (beginApproach ((s.head h).startRead.getD false) h (s.withBus rest)) :=
        (beginApproach_worked (P := fun _ => True) _ (subset_all _) trivial).frame
      have drive : driveOf ((s.withBus rest).head h).current ((s.withBus rest).setup.fullScale.get h) .approach =
          Drive.moving o.approachSpeed (s.setup.fullScale.get h) .down := by
        rw [show ((s.withBus rest).head h).current = some o from order]
        rfl
      have spec := beginApproach_spec ((s.head h).startRead.getD false) h (s.withBus rest)
      refine ⟨fun k mine => ?_, ?_, ?_, ?_, e.claims.trans frame.claims⟩
      · rw [e.head, (spec k).1, if_pos (show k ∈ (s.withBus rest).unit h from mine), drive]
        exact ⟨rfl, rfl, rfl, rfl, rfl, rfl⟩
      · rw [e.sense, (spec h).2, if_pos (mem_unit_self (s.withBus rest) h)]
        simp [Sense.approach]
      · rw [e.sense, (spec h).2, if_pos (mem_unit_self (s.withBus rest) h),
          show ((s.withBus rest).head h).current = some o from order]
        simp [Sense.approach, orderSpeed]
        rfl
      · rw [e.head, (spec h).1, if_pos (mem_unit_self (s.withBus rest) h)]
        rfl
    · have gone : (s.withBus rest).positionGone h = false := by
        have all : ((s.withBus rest).unit h).all (s.withBus rest).posReady = true := positions
        have stays : ((s.withBus rest).head h).posLost = false := stayed
        rw [State.positionGone, all, stays]
        rfl
      have kept : ((s.withBus rest).head h).releaseSeen = false := held
      rw [gone, kept, Bool.and_false] at cause
      simp at cause
  · rw [if_neg (by rw [show (s.withBus rest).guardOpen = s.guardOpen from rfl, closed]; decide)] at found
    have goneIff : (s.withBus rest).positionGone h = true ↔ (s.unit h).all s.posReady = false ∨ (s.head h).posLost = true := by
      have same : (s.withBus rest).positionGone h = ((s.head h).posLost || !(s.unit h).all s.posReady) := rfl
      rw [same, Bool.or_eq_true, Bool.not_eq_true', or_comm]
    have byPair : (s.head h).startRead.getD false = true ↔ (s.head h).startRead = some true := by
      cases (s.head h).startRead <;> simp
    have releasedIff : ((s.head h).startRead.getD false && ((s.withBus rest).head h).releaseSeen) = true ↔
        (s.head h).startRead = some true ∧ (s.head h).releaseSeen = true := by
      rw [Bool.and_eq_true, byPair]
      rfl
    rcases enterApproach_cases ((s.head h).startRead.getD false) h (s.withBus rest) with
      ⟨gone, released, _⟩ | ⟨why, c, enters, cause⟩
    · have stays : ¬_ := mt goneIff.mpr (by rw [gone]; decide)
      have kept : ¬_ := mt releasedIff.mpr (by rw [released]; decide)
      rcases cause with all | lost | both
      · exact absurd (.inl all) stays
      · exact absurd (.inr lost) stays
      · exact absurd both kept
    · have frame : Confined HeadId.all (s.withBus rest) (enterApproach ((s.head h).startRead.getD false) h (s.withBus rest)) :=
        (enterApproach_worked (P := fun _ => True) _ (subset_all _) trivial).frame
      refine .of_finish (congrArg finish ((run _).trans found)) fun t e => ⟨?_, e.claims.trans frame.claims⟩
      rw [show ((s.withBus rest).head h).startRead = (s.head h).startRead from rfl, enters] at e
      have begun := (beginApproach_spec ((s.head h).startRead.getD false) h (s.withBus rest) h).1
      have unit : State.unit { beginApproach ((s.head h).startRead.getD false) h (s.withBus rest) with choices := c } h = s.unit h :=
        unit_congr (show ((beginApproach _ h (s.withBus rest)).head h).gang = _ by
          rw [begun, if_pos (mem_unit_self (s.withBus rest) h)]
          rfl)
      have halted := (haltedBy_haltUnit why h { beginApproach ((s.head h).startRead.getD false) h (s.withBus rest) with choices := c }).of_ended e
      rw [unit] at halted
      rcases cause with ⟨rfl, gone⟩ | ⟨rfl, released⟩
      · exact .inl ⟨goneIff.mp gone, halted⟩
      · obtain ⟨pair, seen⟩ := releasedIff.mp released
        exact .inr ⟨pair, seen, halted⟩
  · exact .of_finish (congrArg finish ((run _).trans (withdrawn v other))) fun t e =>
      (closingBare_ended (s := s.withBus rest) .withdrawn .none order unfixed intact).of_ended e
  · exact .of_finish (congrArg finish ((run _).trans lost)) fun t e =>
      (closingBare_ended (s := s.withBus rest) .refused .memory order unfixed intact).of_ended e

end Sys2Proof.Machine

/-! ### The steps of PREPARE (R52 to R55, R111) -/

namespace Sys2Proof.Machine

theorem othersSame.of_ended {us : List HeadId} {s u t : State} (same : othersSame us s u) (e : Ended u t) :
    othersSame us s t := fun k hk => by
  obtain ⟨head, sense, plan, tool⟩ := same k hk
  exact ⟨(e.head k).trans head, (e.sense k).trans sense, (e.plan k).trans plan, (e.tool k).trans tool⟩

theorem othersSame_withBus {us : List HeadId} {s t : State} {b : List BusReq} (same : othersSame us (s.withBus b) t) :
    othersSame us s t := same

/-- The tool checks of step 3, in the order of R54's table. -/
theorem firstFailing_toolChecks (o : Order) (tools : List Tool) : firstFailing (toolChecks o tools) = toolRefusal o tools := by
  unfold toolChecks toolRefusal
  refine firstFailing_step ?_ (firstFailing_step ?_ (firstFailing_step ?_ (firstFailing_step ?_ (firstFailing_step ?_ rfl))))
  · simp
  · simp
  · simp only [Bool.or_eq_true, decide_eq_true_eq, List.all_eq_true, List.any_eq_true]
    grind
  · simp only [List.any_eq_true, List.all_eq_true, Bool.not_eq_true', Bool.and_eq_true, Bool.and_eq_false_iff, decide_eq_true_eq]
    grind
  · simp

section
variable {x : HeadId} {s : State} {o : Order}

/-- A tool in IDENTIFY makes the head wait. -/
theorem lookTools_waits (identify : ∃ k ∈ s.unit x, (s.tool k).state = .identify) : lookTools x s = s := by
  unfold lookTools
  split
  · rfl
  · obtain ⟨k, mine, state⟩ := identify
    dsimp only
    rw [if_pos (by simpa using ⟨k, mine, state⟩)]

/-- With no tool in IDENTIFY the tool checks are made, then RAM_TOP. -/
theorem lookTools_looks (order : (s.head x).current = some o) (known : ∀ k ∈ s.unit x, (s.tool k).state ≠ .identify) :
    (∀ why, toolRefusal o ((s.unit x).map s.tool) = some why → lookTools x s = refuse .refused why x s) ∧
    (toolRefusal o ((s.unit x).map s.tool) = none → (∃ k ∈ s.unit x, s.ramTop k = false) →
      lookTools x s = refuse .refused .ramNotTop x s) ∧
    (toolRefusal o ((s.unit x).map s.tool) = none → (∀ k ∈ s.unit x, s.ramTop k = true) →
      lookTools x s = startTares x s) := by
  have none : ¬((s.unit x).map s.tool).any (fun t => t.state = .identify) = true := by simpa using known
  have checks := firstFailing_toolChecks o ((s.unit x).map s.tool)
  refine ⟨fun why fails => ?_, fun passes low => ?_, fun passes tops => ?_⟩
  · rw [fails] at checks
    simp only [lookTools, order, if_neg none, checks]
  · have below : ¬(s.unit x).all s.ramTop = true := by simpa using low
    rw [passes] at checks
    simp only [lookTools, order, if_neg none, checks, if_neg below]
  · have all : (s.unit x).all s.ramTop = true := by simpa using tops
    rw [passes] at checks
    simp only [lookTools, order, if_neg none, checks, if_pos all]

end

theorem tareDue_iff (s : State) (k : HeadId) : (s.sense k).tareDue s.setup = true ↔ dueForTare s k := by
  simp [Sense.tareDue, dueForTare]

/-- Step 6 begins: the pin map's slot is read. -/
theorem startPlan_of {x : HeadId} {s : State} {o : Order} (order : (s.head x).current = some o) : startPlan x s =
    requestRead (.planRead x) (slotOffset s.setup o.mapId) 4
      (setPlan x (.loading Build.start) (modHead x (fun m => { m with prep := .plan }) s)) := by
  unfold startPlan
  rw [order]

/-- With no tare due step 5 is complete. -/
theorem startTares_none {x : HeadId} {s : State} (none : ∀ k ∈ s.unit x, ¬dueForTare s k) :
    startTares x s = startPlan x s := by
  have due : ((s.unit x).filter (fun h => (s.sense h).tareDue s.setup)).isEmpty = true := by
    rw [List.isEmpty_iff, List.filter_eq_nil_iff]
    exact fun k mine due => none k mine ((tareDue_iff s k).mp due)
  unfold startTares
  dsimp only
  rw [if_pos due]

/-- Each tare that is due begins (R111, R112). -/
theorem startTares_some {x : HeadId} {s : State} (due : ∃ k ∈ s.unit x, dueForTare s k) :
    (∀ k, (startTares x s).head k = if k = x then { s.head k with prep := .tare } else s.head k) ∧
    (startTares x s).plans = s.plans ∧
    ∀ k ∈ s.unit x, (dueForTare s k →
        ((startTares x s).sense k).tare = some { sums := List.replicate (s.tool k).tines 0, taken := 0 }) ∧
      (¬dueForTare s k → (startTares x s).sense k = s.sense k) := by
  let some := (s.unit x).filter (fun h => (s.sense h).tareDue s.setup)
  let u := modHead x (fun m => { m with prep := .tare }) s
  have mem : ∀ k, k ∈ some ↔ k ∈ s.unit x ∧ dueForTare s k := fun k => by
    rw [List.mem_filter, tareDue_iff]
  have left : ¬some.isEmpty = true := by
    obtain ⟨k, mine, yes⟩ := due
    rw [List.isEmpty_iff]
    exact List.ne_nil_of_mem ((mem k).mpr ⟨mine, yes⟩)
  have begins : startTares x s = eachHead (fun h => modSense h (Sense.startTare (s.tool h).tines)) some u := if_neg left
  have senses := eachHead_modSense (fun h => Sense.startTare (s.tool h).tines) some u ((unit_nodup s x).filter _)
  have plans : (eachHead (fun h => modSense h (Sense.startTare (s.tool h).tines)) some u).plans = u.plans :=
    eachHead_keeps (P := fun v => v.plans = u.plans) (f := fun h => modSense h (Sense.startTare (s.tool h).tines))
      (fun _ _ e => e) some u rfl
  rw [begins]
  refine ⟨fun k => ?_, plans, fun k mine => ⟨fun yes => ?_, fun no => ?_⟩⟩
  · refine (congrArg (Four.get · k) (eachModSense_heads ..)).trans ?_
    split
    · next own => subst own; exact head_modHead_same ..
    · next other => exact head_modHead_other other ..
  · rw [senses, if_pos ((mem k).mpr ⟨mine, yes⟩)]
    rfl
  · rw [senses, if_neg fun h => no ((mem k).mp h).2]
    rfl

/-- WITHDRAW_READ_DONE is told to the read in flight. -/
theorem exec_withdrawRead {h : HeadId} {s : State} (flight : inFlightFor (.withdrawRead h) s) :
    ∃ rest, ∀ value, exec (.withdrawReadDone h value) s = finish (withdrawFound h value (s.withBus rest)) := by
  obtain ⟨rest, run⟩ := onComplete_live flight
  refine ⟨rest, fun value => ?_⟩
  show finish (if s.inFlight = some (.nudgeRead h) then onComplete (.nudgeRead h) (nudgeFound h value) s
    else onComplete (.withdrawRead h) (withdrawFound h value) s) = _
  rw [inFlight_of flight, if_neg (by simp), run]

theorem exec_nudgeRead {h : HeadId} {s : State} (flight : inFlightFor (.nudgeRead h) s) :
    ∃ rest, ∀ value, exec (.withdrawReadDone h value) s = finish (nudgeFound h value (s.withBus rest)) := by
  obtain ⟨rest, run⟩ := onComplete_live flight
  refine ⟨rest, fun value => ?_⟩
  show finish (if s.inFlight = some (.nudgeRead h) then onComplete (.nudgeRead h) (nudgeFound h value) s
    else onComplete (.withdrawRead h) (withdrawFound h value) s) = _
  rw [inFlight_of flight, if_pos rfl, run]

/-- The head as step 2's read has found 0. -/
def atTools (h : HeadId) (s : State) : State := modHead h (fun m => { m with prep := .tools }) s

theorem withdrawFound_zero (h : HeadId) (s : State) : withdrawFound h (some 0) s = lookTools h (atTools h s) := by
  simp [withdrawFound, atTools]

theorem nudgeFound_zero (h : HeadId) (s : State) : nudgeFound h (some 0) s = s := by
  simp [nudgeFound]

theorem atTools_head (h : HeadId) (s : State) : (atTools h s).head h = { s.head h with prep := .tools } :=
  head_modHead_same ..

theorem atTools_unit (h : HeadId) (s : State) : (atTools h s).unit h = s.unit h :=
  unit_congr (by rw [atTools_head])

/-- Settles O47. -/
theorem withdrawReadsInPrepare : Obligations.WithdrawReadsInPrepare := by
  intro s h o order
  refine ⟨fun flight => ?_, fun flight unfixed intact => ?_, fun flight => ?_, fun flight identify => ?_,
    fun flight known => ?_⟩
  · obtain ⟨rest, run⟩ := onComplete_live flight
    let u := modHead h (fun m => { m with prep := .withdraw }) (s.withBus rest)
    have acts : activeWritten h (s.withBus rest) = requestRead (.withdrawRead h) (withdrawOffset o.record) 1 u := by
      have order' : ((s.withBus rest).head h).current = some o := order
      simp only [activeWritten, order', u]
    have head : u.head h = { s.head h with prep := .withdraw } := head_modHead_same ..
    have frame : Confined [h] (s.withBus rest) u :=
      (modHead_worked (P := fun _ => True) (List.mem_singleton.mpr rfl) ⟨rfl, rfl, .inl⟩).frame
    refine .of_finish (congrArg finish ((run _).trans acts)) fun t e => ⟨?_, ?_, e.reads (by simp) (by simp)
      (reads_requestRead ..), othersSame.of_ended (u := requestRead ..) (othersSame_withBus frame.othersSame) e⟩
    · rw [e.head]
      show (u.head h).prep = _
      rw [head]
    · rw [e.head]
      show (u.head h).state = _
      rw [head]
  · obtain ⟨rest, run⟩ := exec_withdrawRead flight
    refine ⟨fun v other => .of_finish ((run _).trans (congrArg finish (if_neg other))) fun t e => ?_,
      .of_finish (run _) fun t e => ?_⟩
    · exact (closingBare_ended (s := s.withBus rest) .withdrawn .none order unfixed intact).of_ended e
    · exact (closingBare_ended (s := s.withBus rest) .refused .memory order unfixed intact).of_ended e
  · obtain ⟨rest, run⟩ := exec_nudgeRead flight
    refine ⟨.of_finish ((run _).trans (congrArg finish (nudgeFound_zero ..))) fun t e => e.sameBlocks,
      .of_finish (run _) fun t e => e.sameBlocks, fun before unfixed intact v other => ?_⟩
    exact .of_finish ((run _).trans (congrArg finish (if_pos ⟨other, before⟩))) fun t e =>
      (closingBare_ended (s := s.withBus rest) .withdrawn .none order unfixed intact).of_ended e
  all_goals
    obtain ⟨rest, run⟩ := exec_withdrawRead flight
    have found : withdrawFound h (some 0) (s.withBus rest) = lookTools h (atTools h (s.withBus rest)) := withdrawFound_zero ..
    have unit : (atTools h (s.withBus rest)).unit h = s.unit h := atTools_unit h (s.withBus rest)
    have head : (atTools h (s.withBus rest)).head h = { s.head h with prep := .tools } := atTools_head h (s.withBus rest)
  · have frame : Confined [h] (s.withBus rest) (atTools h (s.withBus rest)) :=
      (modHead_worked (P := fun _ => True) (List.mem_singleton.mpr rfl) ⟨rfl, rfl, .inl⟩).frame
    rw [lookTools_waits (by rw [unit]; exact identify)] at found
    exact .of_finish ((run _).trans (congrArg finish found)) fun t e => ⟨by rw [e.head, head],
      othersSame.of_ended (othersSame_withBus frame.othersSame) e, by rw [e.plan]; rfl, by rw [e.sense]; rfl⟩
  · have order' : ((atTools h (s.withBus rest)).head h).current = some o := by rw [head]; exact order
    obtain ⟨refuses, low, passes⟩ := lookTools_looks order' (by rw [unit]; exact known)
    rw [unit] at refuses low passes
    refine ⟨fun why unfixed intact cause => ?_, fun good tops => ⟨fun due => ?_, fun none => ?_⟩⟩
    · have refused : lookTools h (atTools h (s.withBus rest)) = refuse .refused why h (atTools h (s.withBus rest)) := by
        rcases cause with fails | ⟨passes, rfl, below⟩
        · exact refuses why fails
        · exact low passes below
      exact .of_finish ((run _).trans (congrArg finish (found.trans refused))) fun t e =>
        (closingBare_ended .refused why order' (by rw [head]; exact unfixed) (by rw [head]; exact intact)).of_ended e
    · obtain ⟨heads, plans, senses⟩ := startTares_some (x := h) (s := atTools h (s.withBus rest)) (by rw [unit]; exact due)
      refine .of_finish ((run _).trans (congrArg finish (found.trans (passes good tops)))) fun t e => ⟨?_, ?_, fun k mine => ?_⟩
      · rw [e.head, heads, if_pos rfl]
      · rw [State.plan, e.plans, plans]
        rfl
      · rw [e.sense]
        exact senses k (unit.symm ▸ mine)
    · have builds := startTares_none (x := h) (s := atTools h (s.withBus rest)) (by rw [unit]; exact none)
      rw [startPlan_of order'] at builds
      refine .of_finish ((run _).trans (congrArg finish (found.trans ((passes good tops).trans builds)))) fun t e =>
        ⟨?_, ?_, e.reads (by simp) (by simp) (reads_requestRead ..), fun k _ => by rw [e.sense]; rfl⟩
      · rw [e.head]
        exact congrArg Head.prep (head_modHead_same h (fun m => { m with prep := .plan }) (atTools h (s.withBus rest)))
      · rw [e.plan]
        exact plan_setPlan_same ..

end Sys2Proof.Machine

/-! ## Results and header -/

namespace Sys2Proof.Machine

/-! ### Fields laid out (sections 11.4, 11.5) -/

theorem byteAt_ofNat (n : Nat) (d : List Byte) : byteAt (BitVec.ofNat 8 n :: d) 0 = n % 256 := by
  simp [byteAt]

theorem byteAt_append (a d : List Byte) (i : Nat) : byteAt (a ++ d) (a.length + i) = byteAt d i := by
  simp [byteAt, List.getD, List.getElem?_append_right]

theorem u16At_append (a d : List Byte) (i : Nat) : u16At (a ++ d) (a.length + i) = u16At d i := by
  rw [u16At, u16At, Nat.add_assoc, byteAt_append, byteAt_append]

theorem u32At_append (a d : List Byte) (i : Nat) : u32At (a ++ d) (a.length + i) = u32At d i := by
  rw [u32At, u32At, Nat.add_assoc, u16At_append, u16At_append]

theorem byteAt_drop (d : List Byte) (i j : Nat) : byteAt (d.drop i) j = byteAt d (i + j) := by
  simp [byteAt, List.getD]

theorem u16At_drop (d : List Byte) (i : Nat) : u16At (d.drop i) 0 = u16At d i := by
  rw [u16At, u16At, byteAt_drop, byteAt_drop, Nat.add_zero]

theorem u32At_drop (d : List Byte) (i : Nat) : u32At (d.drop i) 0 = u32At d i := by
  simp only [u32At, u16At, byteAt_drop, Nat.add_zero, Nat.zero_add, Nat.add_assoc]

theorem u16At_put16 (n : Nat) (d : List Byte) : u16At (put16 n ++ d) 0 = n % 2 ^ 16 := by
  have low : byteAt (put16 n ++ d) 0 = n % 256 := byteAt_ofNat n _
  have high : byteAt (put16 n ++ d) 1 = n / 256 % 256 := byteAt_ofNat (n / 256) d
  rw [u16At, low, high]
  omega

theorem u32At_put32 (n : Nat) (d : List Byte) : u32At (put32 n ++ d) 0 = n % 2 ^ 32 := by
  have low : u16At (put32 n ++ d) 0 = n % 2 ^ 16 := by
    rw [put32, List.append_assoc]
    exact u16At_put16 ..
  have high : u16At (put32 n ++ d) 2 = n / 65536 % 2 ^ 16 := by
    rw [put32, List.append_assoc]
    exact (u16At_append (put16 n) _ 0).trans (u16At_put16 ..)
  rw [u32At, low, high]
  omega

theorem u32At_putS32 (i : Int) (d : List Byte) : u32At (putS32 i ++ d) 0 = pattern32 i := by
  rw [putS32, u32At_put32, pattern32]
  exact Nat.mod_eq_of_lt (BitVec.isLt _)

theorem length_putS32 (i : Int) : (putS32 i).length = 4 := rfl

/-- Four bytes to a force, in order. -/
theorem forces_at (forces : List (Option Int)) (i : Nat) (force : Option Int) (found : forces[i]? = some force) :
    u32At (forces.map fun f => putS32 (f.getD missingForce)).flatten (4 * i) = pattern32 (force.getD missingForce) := by
  induction forces generalizing i with
  | nil => cases found
  | cons f fs ih =>
    rw [List.map_cons, List.flatten_cons]
    cases i with
    | zero =>
      cases found
      exact u32At_putS32 ..
    | succ i =>
      rw [show 4 * (i + 1) = (putS32 (f.getD missingForce)).length + 4 * i by rw [length_putS32]; omega, u32At_append]
      exact ih i found

theorem forces_length (forces : List (Option Int)) :
    (forces.map fun f => putS32 (f.getD missingForce)).flatten.length = 4 * forces.length := by
  induction forces with
  | nil => rfl
  | cons f fs ih =>
    rw [List.map_cons, List.flatten_cons, List.length_append, length_putS32, ih, List.length_cons]
    omega

/-- The bytes of a trace row (R162). -/
theorem traceRow_bytes (row : TraceRow) : row.bytes.length = 4 + 4 * row.forces.length ∧
    u32At row.bytes 0 = pattern32 row.depth ∧
    ∀ (i : Nat) (force : Option Int), row.forces[i]? = some force →
      u32At row.bytes (4 + 4 * i) = pattern32 (force.getD missingForce) := by
  refine ⟨by rw [TraceRow.bytes, List.length_append, length_putS32, forces_length], u32At_putS32 .., fun i force found => ?_⟩
  have place := u32At_append (putS32 row.depth) (row.forces.map fun f => putS32 (f.getD missingForce)).flatten (4 * i)
  rw [forces_at row.forces i force found, length_putS32] at place
  rw [TraceRow.bytes, place]

/-- The first four bytes of the device fields (R160). -/
theorem deviceFields_codes (f : DeviceFields) : byteAt f.bytes 0 = f.outcome.code ∧ byteAt f.bytes 1 = f.reason.code ∧
    byteAt f.bytes 2 = (if f.traceFull then 1 else 0) + (if f.withdrawSeen then 2 else 0) +
      (if f.resultsWritten then 4 else 0) ∧ byteAt f.bytes 3 = 0 := by
  have outcome : f.outcome.code < 256 := by cases f.outcome <;> decide
  have reason : f.reason.code < 256 := by cases f.reason <;> decide
  have first : byteAt f.bytes 0 = f.outcome.code % 256 := byteAt_ofNat f.outcome.code (f.bytes.drop 1)
  have second : byteAt f.bytes 1 = f.reason.code % 256 := byteAt_ofNat f.reason.code (f.bytes.drop 2)
  have third : byteAt f.bytes 2 = (bit f.traceFull 0 + bit f.withdrawSeen 1 + bit f.resultsWritten 2) % 256 :=
    byteAt_ofNat _ (f.bytes.drop 3)
  refine ⟨by rw [first, Nat.mod_eq_of_lt outcome], by rw [second, Nat.mod_eq_of_lt reason], ?_, rfl⟩
  rw [third]
  cases f.traceFull <;> cases f.withdrawSeen <;> cases f.resultsWritten <;> rfl

theorem u16At_of_drop {d : List Byte} {i n : Nat} {rest : List Byte} (laid : d.drop i = put16 n ++ rest) :
    u16At d i = n % 2 ^ 16 := by
  rw [← u16At_drop, laid, u16At_put16]

theorem u32At_of_drop {d : List Byte} {i n : Nat} {rest : List Byte} (laid : d.drop i = put32 n ++ rest) :
    u32At d i = n % 2 ^ 32 := by
  rw [← u32At_drop, laid, u32At_put32]

theorem s32At_of_drop {d : List Byte} {i : Nat} {n : Int} {rest : List Byte} (laid : d.drop i = putS32 n ++ rest) :
    u32At d i = pattern32 n := by
  rw [← u32At_drop, laid, u32At_putS32]

/-- The device fields laid out (R160). -/
theorem deviceFields_bytes (f : DeviceFields) :
    f.bytes.length = 32 ∧ u16At f.bytes 4 = f.failed % 2 ^ 16 ∧ u16At f.bytes 6 = f.notChecked % 2 ^ 16 ∧
    u16At f.bytes 8 = f.unjudged % 2 ^ 16 ∧ u16At f.bytes 10 = f.overruns % 2 ^ 16 ∧
    u32At f.bytes 12 = pattern32 f.contactDepth ∧ u32At f.bytes 16 = pattern32 f.seatDepth ∧
    u32At f.bytes 20 = pattern32 f.peak ∧ u32At f.bytes 24 = f.traceBytes % 2 ^ 32 ∧ u32At f.bytes 28 = 0 := by
  have last : u32At f.bytes 28 = 0 % 2 ^ 32 := u32At_of_drop (rest := []) rfl
  exact ⟨rfl, u16At_of_drop (rest := f.bytes.drop 6) rfl, u16At_of_drop (rest := f.bytes.drop 8) rfl,
    u16At_of_drop (rest := f.bytes.drop 10) rfl, u16At_of_drop (rest := f.bytes.drop 12) rfl,
    s32At_of_drop (rest := f.bytes.drop 16) rfl, s32At_of_drop (rest := f.bytes.drop 20) rfl,
    s32At_of_drop (rest := f.bytes.drop 24) rfl, u32At_of_drop (rest := f.bytes.drop 28) rfl, last⟩

/-! ### The closing writes (R161) -/

/-- A closing write is under way: its stage is noted, its bytes are at the bus, and nothing else has changed. -/
structure ClosingSent (h : HeadId) (c : Closing) (stage : CloseStage) (offset : Nat) (data : List Byte)
    (s t : State) : Prop where
  closing : (t.head h).closing = some { c with stage := stage }
  trace : (t.head h).trace = (s.head h).trace
  asked : writes (.outcomeWrite h) offset data t
  others : othersSame [h] s t

theorem setClosing_head (h : HeadId) (c : Closing) (s : State) :
    (setClosing h c s).head h = { s.head h with closing := some c } :=
  head_modHead_same h (fun m => { m with closing := some c }) s

theorem closingSent (h : HeadId) (c : Closing) (stage : CloseStage) (offset : Nat) (data : List Byte) (s : State) :
    ClosingSent h c stage offset data s
      (requestWrite (.outcomeWrite h) offset data (setClosing h { c with stage := stage } s)) where
  closing := by
    have head := setClosing_head h { c with stage := stage } s
    exact congrArg Head.closing head
  trace := by
    have head := setClosing_head h { c with stage := stage } s
    have kept := congrArg Head.trace head
    exact kept
  asked := writes_requestWrite ..
  others := ((setClosing_worked (P := fun _ => True) (List.mem_singleton.mpr rfl) _ s).trans
    (requestWrite_worked ..)).frame.othersSame

theorem ClosingSent.of_ended {h : HeadId} {c : Closing} {stage : CloseStage} {offset : Nat} {data : List Byte}
    {s u t : State} (sent : ClosingSent h c stage offset data s u) (e : Ended u t) :
    ClosingSent h c stage offset data s t where
  closing := by rw [e.head, sent.closing]
  trace := by rw [e.head, sent.trace]
  asked := e.writes (fun _ => nofun) nofun sent.asked
  others := sent.others.of_ended e

theorem putEntry_sent {i : Nat} {c : Closing} {e : ResultEntry} (found : c.result.entries[i]? = some e) (h : HeadId)
    (s : State) : ClosingSent h c (.entry i) (c.order.resultArea + 16 * e.index) e.bytes s (putEntry i h c s) := by
  simp only [putEntry, found]
  exact closingSent ..

theorem putRows_sent {h : HeadId} {s : State} (held : (s.head h).trace.rows ≠ []) (c : Closing) :
    ClosingSent h c .rows ((s.head h).trace.offset c.order) (s.head h).trace.bytes s (putRows h c s) := by
  rw [putRows, if_neg (by simpa using held)]
  exact closingSent ..

theorem putRows_none {h : HeadId} {s : State} (none : (s.head h).trace.rows = []) (c : Closing) :
    ClosingSent h c .fields (fieldsOffset c.order.record) (s.fieldsOf h c).bytes s (putRows h c s) := by
  rw [putRows, if_pos (by simp [none])]
  exact closingSent ..

theorem putEntry_over {i : Nat} {c : Closing} (last : c.result.entries[i]? = none) (h : HeadId) (s : State) :
    putEntry i h c s = putRows h c s := by
  simp only [putEntry, last]

/-- The trace rows a completed write carried leave the head's buffer. -/
def rowsGone (n : Nat) (h : HeadId) (s : State) : State :=
  modHead h (fun m => { m with trace := m.trace.written n }) s

theorem rowsGone_head (n : Nat) (h : HeadId) (s : State) :
    (rowsGone n h s).head h = { s.head h with trace := (s.head h).trace.written n } :=
  head_modHead_same h (fun m => { m with trace := m.trace.written n }) s

theorem rowsGone_fieldsOf (n : Nat) (h : HeadId) (c : Closing) (s : State) :
    (rowsGone n h s).fieldsOf h c = s.fieldsOf h c := by
  simp only [State.fieldsOf, rowsGone_head]
  rfl

theorem rowsGone_others (n : Nat) (h : HeadId) (s : State) : othersSame [h] s (rowsGone n h s) :=
  (modHead_frame (f := fun m => { m with trace := m.trace.written n }) (List.mem_singleton.mpr rfl) (fun _ => id) s).othersSame

theorem othersSame.trans {us : List HeadId} {s t u : State} (a : othersSame us s t) (b : othersSame us t u) :
    othersSame us s u := fun k other => by
  obtain ⟨head, sense, plan, tool⟩ := a k other
  obtain ⟨head', sense', plan', tool'⟩ := b k other
  exact ⟨head'.trans head, sense'.trans sense, plan'.trans plan, tool'.trans tool⟩

/-! ### The commands -/

theorem exec_traceWriteDone {h : HeadId} {s : State} (flight : inFlightFor (.traceWrite h) s) :
    ∃ rest, exec (.traceWriteDone h) s = finish (traceWritten h (s.withBus rest)) := by
  obtain ⟨rest, live⟩ := onComplete_live flight
  exact ⟨rest, congrArg finish (live (traceWritten h))⟩

theorem exec_outcomeWriteDone {h : HeadId} {s : State} (flight : inFlightFor (.outcomeWrite h) s) :
    ∃ rest, exec (.outcomeWriteDone h) s = finish (outcomeWritten h (s.withBus rest)) := by
  obtain ⟨rest, live⟩ := onComplete_live flight
  exact ⟨rest, congrArg finish (live (outcomeWritten h))⟩

theorem traceWritten_running {h : HeadId} {s : State} (running : (s.head h).closing = none) :
    traceWritten h s = kickTrace h (rowsGone (s.head h).trace.inFlight h s) := by
  have gone : rowsGone (s.head h).trace.inFlight h s =
      modHead h (fun m => { m with trace := m.trace.written m.trace.inFlight }) s := rfl
  have none : ((rowsGone (s.head h).trace.inFlight h s).head h).closing = none := by
    rw [rowsGone_head, ← running]
  simp only [traceWritten, ← gone, none]

theorem traceWritten_closing {h : HeadId} {s : State} {c : Closing} (closing : (s.head h).closing = some c)
    (waits : c.stage = .traceFlight) :
    traceWritten h s = putEntry 0 h c (rowsGone (s.head h).trace.inFlight h s) := by
  have gone : rowsGone (s.head h).trace.inFlight h s =
      modHead h (fun m => { m with trace := m.trace.written m.trace.inFlight }) s := rfl
  have still : ((rowsGone (s.head h).trace.inFlight h s).head h).closing = some c := by
    rw [rowsGone_head, ← closing]
  simp only [traceWritten, ← gone, still, waits, if_true]

/-- The rows left after a trace write are written at once, as many as there are (R162). -/
theorem kickTrace_rest {h : HeadId} {o : Order} {n : Nat} {s : State} (order : (s.head h).current = some o)
    (running : (s.head h).closing = none) (sound : (s.head h).writeFailed = false) :
    let t := kickTrace h (rowsGone n h s)
    let trace := (s.head h).trace
    (t.head h).trace = { trace.written n with inFlight := (trace.rows.drop n).length } ∧
    (trace.rows.drop n ≠ [] → writes (.traceWrite h) ((trace.written n).offset o) (trace.written n).bytes t) ∧
    othersSame [h] s t ∧ t.claims = s.claims ∧ t.reader = s.reader := by
  intro t trace
  have head := rowsGone_head n h s
  have others := rowsGone_others n h s
  have reader : t.reader = s.reader := by
    show (kickTrace h (rowsGone n h s)).reader = _
    unfold kickTrace
    dsimp only
    split
    · rfl
    · split <;> rfl
  have worked : Worked (fun _ => True) [h] (rowsGone n h s) t := kickTrace_worked (List.mem_singleton.mpr rfl) _
  have acts : t = if trace.rows.drop n = [] then rowsGone n h s else
      requestWrite (.traceWrite h) ((trace.written n).offset o) (trace.written n).bytes
        (modHead h (fun m => { m with trace := { m.trace with inFlight := m.trace.rows.length } }) (rowsGone n h s)) := by
    by_cases none : (s.head h).trace.rows.drop n = []
    · rw [if_pos none]
      simp only [t, kickTrace, head, order, Trace.written, none, List.isEmpty_nil, Bool.not_true, Bool.and_false,
        Bool.false_eq_true, if_false]
    · have held : ((s.head h).trace.rows.drop n).isEmpty = false := by simpa using none
      rw [if_neg none]
      simp only [t, kickTrace, head, order, running, sound, Trace.written, held, Option.isNone_none,
        Bool.not_false, Bool.true_and, decide_true, if_true]
      rfl
  refine ⟨?_, fun held => ?_, others.trans worked.frame.othersSame, worked.frame.claims, reader⟩
  · rw [acts]
    split
    · next none => rw [head, none]; rfl
    · have twice := head_modHead_same h (fun m => { m with trace := { m.trace with inFlight := m.trace.rows.length } })
        (rowsGone n h s)
      rw [head] at twice
      exact congrArg Head.trace twice
  · rw [acts, if_neg held]
    exact writes_requestWrite ..

/-- What the device fields hold (R57, R160). -/
theorem fieldsOf_spec (s : State) (h : HeadId) (c : Closing) :
    let f := s.fieldsOf h c
    f.outcome = c.result.outcome ∧ f.reason = c.result.reason ∧
    (c.stroke = true →
      f.resultsWritten = true ∧ f.withdrawSeen = false ∧ f.traceFull = (s.head h).trace.full ∧
      f.failed = c.result.failed ∧ f.notChecked = c.result.notChecked ∧ f.unjudged = c.result.unjudged ∧
      f.overruns = (s.sense h).overruns ∧ f.peak = (s.sense h).peak ∧ f.contactDepth = c.contactDepth ∧
      f.seatDepth = c.seatDepth ∧ f.traceBytes = (s.head h).trace.accepted * (s.head h).trace.rowSize) ∧
    (c.stroke = false →
      f.resultsWritten = false ∧ f.traceFull = false ∧
      (f.withdrawSeen = true ↔ c.result.outcome = .withdrawn) ∧
      f.failed = 0 ∧ f.notChecked = 0 ∧ f.unjudged = 0 ∧ f.overruns = 0 ∧ f.peak = 0 ∧
      f.contactDepth = 0 ∧ f.seatDepth = 0 ∧ f.traceBytes = 0) := by
  cases stroke : c.stroke
  · simp [State.fieldsOf, stroke, DeviceFields.bare]
  · simp [State.fieldsOf, stroke]

/-- A row offered to the trace (R163). -/
theorem accept_spec (o : Order) (row : TraceRow) (w : Trace) :
    w.accept o row =
      if o.traceArea = 0 ∨ w.full = true then w
      else if (w.accepted + 1) * w.rowSize ≤ o.traceCapacity ∧ w.rows.length < 64 then
        { w with rows := w.rows ++ [row], accepted := w.accepted + 1 }
      else { w with full := true } := by
  simp only [Trace.accept, Bool.or_eq_true, decide_eq_true_eq]

theorem ClosingSent.withBus {h : HeadId} {c : Closing} {stage : CloseStage} {offset : Nat} {data : List Byte}
    {s t : State} {bus : List BusReq} (sent : ClosingSent h c stage offset data (s.withBus bus) t) :
    ClosingSent h c stage offset data s t :=
  ⟨sent.closing, sent.trace, sent.asked, sent.others⟩

theorem outcomeWritten_closing {h : HeadId} {s : State} {c : Closing} (closing : (s.head h).closing = some c) :
    (∀ i, c.stage = .entry i → outcomeWritten h s = putEntry (i + 1) h c s) ∧
    (c.stage = .rows → outcomeWritten h s = putFields h c (rowsGone (s.head h).trace.rows.length h s)) ∧
    (c.stage = .fields → outcomeWritten h s = putDone h c s) ∧
    (c.stage = .done → outcomeWritten h s = report h c s) := by
  refine ⟨fun i at_ => ?_, fun at_ => ?_, fun at_ => ?_, fun at_ => ?_⟩ <;> simp only [outcomeWritten, closing, at_]
  rfl

/-- A completed closing write is followed by the next one (R161). -/
theorem closingWrite_follows {s : State} {h : HeadId} {c : Closing} (flight : inFlightFor (.outcomeWrite h) s)
    {stage : CloseStage} {offset : Nat} {data : List Byte}
    (sent : ∀ bus, ClosingSent h c stage offset data (s.withBus bus) (outcomeWritten h (s.withBus bus))) :
    Answers (.outcomeWriteDone h) s (ClosingSent h c stage offset data s) := by
  obtain ⟨rest, run⟩ := exec_outcomeWriteDone flight
  exact .of_finish run fun t e => (sent rest).withBus.of_ended e

theorem Answers.imp {i : Instr} {s : State} {P Q : State → Prop} (answers : Answers i s P) (weaker : ∀ t, P t → Q t) :
    Answers i s Q := by
  obtain ⟨t, next, holds⟩ := answers
  exact ⟨t, next, weaker t holds⟩

theorem ClosingSent.spelled {h : HeadId} {c : Closing} {stage : CloseStage} {offset : Nat} {data : List Byte}
    {s t : State} (sent : ClosingSent h c stage offset data s t) :
    (t.head h).closing = some { c with stage := stage } ∧ writes (.outcomeWrite h) offset data t ∧ othersSame [h] s t :=
  ⟨sent.closing, sent.asked, sent.others⟩

/-- Settles O53: the bytes of rows and fields are read off their layout, and every completed write of the closing is
followed by the next of R161's order. -/
theorem traceAndClosingWrites : Obligations.TraceAndClosingWrites := by
  refine ⟨accept_spec, fun row => ?_, fieldsOf_spec, fun f => ?_, ⟨by decide, by decide⟩, ?_, ?_, ?_⟩
  · obtain ⟨length, depth, forces⟩ := traceRow_bytes row
    refine ⟨length, depth, fun i force found => ?_⟩
    rw [forces i force found]
    cases force <;> rfl
  · obtain ⟨first, second, third, fourth⟩ := deviceFields_codes f
    obtain ⟨length, rest⟩ := deviceFields_bytes f
    exact ⟨length, first, second, third, fourth, rest⟩
  · intro s h o flight order running sound
    obtain ⟨rest, run⟩ := exec_traceWriteDone flight
    have acts := traceWritten_running (h := h) (s := s.withBus rest) running
    have kicked := kickTrace_rest (h := h) (n := (s.head h).trace.inFlight) (s := s.withBus rest) order running sound
    obtain ⟨trace, asked, others, claims, reader⟩ := kicked
    rw [acts] at run
    refine .of_finish run fun t e => ?_
    have now : (t.head h).trace = _ := (congrArg Head.trace (e.head h)).trans trace
    rw [now]
    exact ⟨rfl, rfl, rfl, fun held => e.writes (fun _ => nofun) nofun (asked held), (othersSame_withBus others).of_ended e,
      e.claims.trans claims, e.reader.trans reader⟩
  · intro s h c entry more flight closing waits entries
    obtain ⟨rest, run⟩ := exec_traceWriteDone flight
    have acts := traceWritten_closing (h := h) (s := s.withBus rest) closing waits
    have sent := (putEntry_sent (i := 0) (by rw [entries]; rfl) h
      (rowsGone (s.head h).trace.inFlight h (s.withBus rest)) : ClosingSent h c _ _ _ _ _)
    have others := (rowsGone_others (s.head h).trace.inFlight h (s.withBus rest)).trans sent.others
    have trace := sent.trace
    rw [rowsGone_head] at trace
    refine .of_finish (run.trans (congrArg finish acts)) fun t e => ?_
    have ended := sent.of_ended e
    exact ⟨by rw [ended.trace, rowsGone_head]; rfl, ended.closing, ended.asked, (othersSame_withBus others).of_ended e⟩
  · intro s h c flight closing
    have written := fun bus => outcomeWritten_closing (h := h) (s := s.withBus bus) closing
    refine ⟨fun i e at_ found => ?_, fun i at_ last none => ?_, fun i at_ last held => ?_, fun at_ => ?_, fun at_ => ?_⟩
    · refine (closingWrite_follows flight fun bus => ?_).imp fun t => ClosingSent.spelled
      rw [(written bus).1 i at_]
      exact putEntry_sent found ..
    · refine (closingWrite_follows flight fun bus => ?_).imp fun t => ClosingSent.spelled
      rw [(written bus).1 i at_, putEntry_over last]
      exact putRows_none (s := s.withBus bus) none c
    · refine (closingWrite_follows flight fun bus => ?_).imp fun t => ClosingSent.spelled
      rw [(written bus).1 i at_, putEntry_over last]
      exact putRows_sent (s := s.withBus bus) held c
    · obtain ⟨rest, run⟩ := exec_outcomeWriteDone flight
      have acts := (written rest).2.1 at_
      let gone := rowsGone (s.head h).trace.rows.length h (s.withBus rest)
      have sent : ClosingSent h c .fields (fieldsOffset c.order.record) (gone.fieldsOf h c).bytes gone (putFields h c gone) :=
        closingSent ..
      refine .of_finish (run.trans (congrArg finish acts)) fun t e => ?_
      have ended := sent.of_ended e
      rw [rowsGone_fieldsOf] at ended
      refine ⟨ended.closing, ?_, ended.asked,
        (othersSame_withBus (rowsGone_others _ h (s.withBus rest))).trans ended.others⟩
      rw [ended.trace, rowsGone_head]
      exact List.drop_length
    · refine (closingWrite_follows flight fun bus => ?_).imp fun t => ClosingSent.spelled
      rw [(written bus).2.2.1 at_]
      exact closingSent ..

end Sys2Proof.Machine

/-! ## The report -/

namespace Sys2Proof.Machine

theorem UnitTouched.reader {s t : State} (touched : UnitTouched s t) : t.reader = s.reader := by
  obtain ⟨_, _, _, _, _, _, _, _, _, rfl⟩ := touched
  exact Eq.refl _

theorem afterReport_unit (x : HeadId) (s : State) : UnitTouched s (afterReport x s) := by
  unfold afterReport
  split
  case h_1 | h_2 | h_3 => exact rise_unit ..
  case h_4 | h_5 | h_6 => exact (goRest_press ..).unit
  case h_7 => exact (dropCurrent_press ..).unit
  all_goals exact .rfl

theorem leaveHeld_lists (s : State) : (leaveHeld s).reader.completed = s.reader.completed ∧
    (leaveHeld s).reader.taken = s.reader.taken ∧ (leaveHeld s).reader.queues = s.reader.queues := by
  unfold leaveHeld
  split
  · split
    · rw [requestRead, request, changeReader_reader]
      exact ⟨rfl, rfl, rfl⟩
    · exact ⟨rfl, rfl, rfl⟩
  · exact ⟨rfl, rfl, rfl⟩

/-- What the reader records of a report (R153). -/
theorem recordOutcome_reader (o : Order) (s : State) :
    (recordOutcome o s).reader.completed = s.reader.completed + 1 ∧
    (recordOutcome o s).reader.taken = s.reader.taken.filter (fun p => p.age ≠ o.age) ∧
    (recordOutcome o s).reader.queues = s.reader.queues.map (fun q => q.filter (· ≠ o.age)) := by
  obtain ⟨completed, taken, queues⟩ :=
    leaveHeld_lists (raise .done (changeReader (fun r => { r.remove o.age with completed := r.completed + 1 }) s))
  rw [raise_reader, changeReader_reader] at completed taken queues
  exact ⟨completed, taken, queues⟩

theorem recordOutcome_flagged (o : Order) (s : State) : flagged .done (recordOutcome o s) :=
  (leaveHeld_worked (P := fun _ => True) (us := []) _).frame.flagged (flagged_raise ..)

theorem head_dropCurrent (x : HeadId) (s : State) {k : HeadId} (mine : k ∈ s.unit x) :
    (dropCurrent x s).head k = { s.head k with current := none } := by
  rw [dropCurrent, eachHead_modHead (fun _ m => { m with current := none }) _ _ (unit_nodup s x), if_pos mine]

/-- The report, after its record. -/
def recorded (x : HeadId) (c : Closing) (s : State) : State :=
  recordOutcome c.order (modHead x (fun m => { m with closing := none }) s)

theorem report_eq (x : HeadId) (c : Closing) (s : State) : report x c s = afterReport x (recorded x c s) := rfl

theorem head_recorded (x : HeadId) (c : Closing) (s : State) (k : HeadId) :
    (recorded x c s).head k = if k = x then { s.head k with closing := none } else s.head k := by
  rw [recorded, State.head, recordOutcome_heads]
  show (modHead x (fun m => { m with closing := none }) s).head k = _
  by_cases own : k = x
  · subst own
    rw [head_modHead_same, if_pos rfl]
  · rw [head_modHead_other own, if_neg own]

theorem recorded_frame (x : HeadId) (c : Closing) (s : State) : Confined HeadId.all s (recorded x c s) :=
  ((modHead_worked (P := fun _ => True) x.mem_all ⟨rfl, rfl, .inl⟩).trans (recordOutcome_worked ..)).frame

theorem unit_recorded (x : HeadId) (c : Closing) (s : State) : (recorded x c s).unit x = s.unit x :=
  unit_congr (by rw [head_recorded, if_pos rfl])

theorem state_recorded (x : HeadId) (c : Closing) (s : State) (k : HeadId) :
    ((recorded x c s).head k).state = (s.head k).state := by
  rw [head_recorded]
  split <;> rfl

theorem afterReport_of_halted {x : HeadId} {s : State} (halted : (s.head x).state = .halted) :
    afterReport x s = dropCurrent x s := by
  simp only [afterReport, halted]

theorem afterReport_of_before {x : HeadId} {s : State} (before : (s.head x).state.beforeStroke = true) :
    afterReport x s = goRest s.restState x s := by
  cases state : (s.head x).state
  case prepare | zoneWait | startWait => simp only [afterReport, state]
  all_goals rw [state] at before; cases before

theorem afterReport_of_stroke {x : HeadId} {s : State}
    (stroke : (s.head x).state = .seek ∨ (s.head x).state = .press ∨ (s.head x).state = .dwell) :
    afterReport x s = rise .retract x s := by
  rcases stroke with state | state | state <;> simp only [afterReport, state]

theorem holdTops_closing (x : HeadId) (s : State) (k : HeadId) :
    ((eachHead holdTop (s.unit x) s).head k).closing = (s.head k).closing := by
  rw [head_holdTops]
  split
  · split <;> rfl
  · rfl

theorem checkTop_closing {x : HeadId} {s : State} {k : HeadId} (mine : k ∈ s.unit x) :
    ((checkTop x s).head k).closing = (s.head k).closing := by
  have held := holdTops_closing x s k
  unfold checkTop
  dsimp only
  split
  · rw [head_finishTop (by rw [unit_holdTops]; exact mine)]
    exact held
  · exact held

theorem rise_closing {st : HeadState} {x : HeadId} {s : State} {k : HeadId} (mine : k ∈ s.unit x) :
    ((rise st x s).head k).closing = (s.head k).closing := by
  rw [rise_eq, checkTop_closing (by rw [unit_risen]; exact mine), head_risen, if_pos mine]
  rfl

/-- A report leaves no closing at its head. -/
theorem afterReport_closing (x : HeadId) (s : State) : ((afterReport x s).head x).closing = (s.head x).closing := by
  have mine := mem_unit_self s x
  unfold afterReport
  split
  case h_1 | h_2 | h_3 => exact rise_closing mine
  case h_4 | h_5 | h_6 => rw [head_goRest, if_pos mine]; rfl
  case h_7 => rw [head_dropCurrent x s mine]
  all_goals rfl

/-- Settles O54. -/
theorem doneIsReportedAndRecorded : Obligations.DoneIsReportedAndRecorded := by
  intro s h c flight closing done leads
  obtain ⟨rest, run⟩ := exec_outcomeWriteDone flight
  have acts := (outcomeWritten_closing (h := h) (s := s.withBus rest) closing).2.2.2 done
  let r := recorded h c (s.withBus rest)
  have frame : Confined HeadId.all (s.withBus rest) r := recorded_frame ..
  have reported : Confined HeadId.all r (afterReport h r) :=
    (afterReport_worked (P := fun _ => True) (subset_all _) fun _ => trivial).frame
  have reader : (afterReport h r).reader = r.reader := (afterReport_unit h r).reader
  have unit : r.unit h = s.unit h := unit_recorded h c (s.withBus rest)
  have state : ∀ k, (r.head k).state = (s.head k).state := state_recorded h c (s.withBus rest)
  obtain ⟨completed, taken, queues⟩ := recordOutcome_reader c.order
    (modHead h (fun m => { m with closing := none }) (s.withBus rest))
  refine .of_finish (u := afterReport h r) (run.trans (congrArg finish acts)) fun t e => ?_
  refine ⟨?_, e.flagged (reported.flagged (recordOutcome_flagged ..)), by rw [e.reader, reader]; exact completed,
    by rw [e.reader, reader]; exact taken, by rw [e.reader, reader]; exact queues, fun halted k mine => ?_,
    fun before k mine => ?_, fun stroke away k mine => ?_, e.claims.trans (reported.claims.trans frame.claims)⟩
  · rw [e.head, afterReport_closing, head_recorded, if_pos rfl]
  · rw [e.head, afterReport_of_halted (by rw [state]; exact halted), head_dropCurrent h r (by rw [unit]; exact mine)]
    exact ⟨state k, rfl⟩
  · rw [e.head, afterReport_of_before (by rw [state]; exact before), head_goRest, if_pos (by rw [unit]; exact mine),
      frame.restState]
    exact ⟨rfl, rfl⟩
  · have mine' : k ∈ r.unit h := by rw [unit]; exact mine
    have below : r.ramTop k = false := (frame.ramTop k).trans (away k mine)
    rw [e.head, afterReport_of_stroke (by rw [state]; exact stroke), rise_of_below rfl mine' below mine',
      if_neg (by rw [below]; exact Bool.false_ne_true)]
    exact ⟨rfl, rfl, rfl, rfl⟩

end Sys2Proof.Machine

/-! ## The header -/

namespace Sys2Proof.Machine

/-! ### The bytes of a part (sections 11.1, 11.6) -/

theorem byteAt_of_drop {d : List Byte} {i n : Nat} {rest : List Byte} (laid : d.drop i = put8 n ++ rest) :
    byteAt d i = n % 256 := by
  rw [show byteAt d i = byteAt (d.drop i) 0 by rw [byteAt_drop]; rfl, laid]
  exact byteAt_ofNat n rest

theorem byteAt_zeros (n i : Nat) : byteAt (zeros n) i = 0 := by
  rw [byteAt, List.getD_eq_getElem?_getD, zeros, List.getElem?_replicate]
  split <;> rfl

/-- Zeros from a place to the end. -/
theorem byteAt_of_zeros {d : List Byte} {n i j : Nat} (laid : d.drop n = zeros j) (far : n ≤ i) : byteAt d i = 0 := by
  obtain ⟨k, rfl⟩ := Nat.exists_eq_add_of_le far
  rw [← byteAt_drop, laid, byteAt_zeros]

/-- Where the fields of the chain part stand. -/
theorem chain_layout (state fault anchor retire completed taken : Nat) :
    let d := put8 state ++ put8 fault ++ zeros 2 ++ put32 anchor ++ put32 retire ++ put32 completed ++ put32 taken ++ zeros 12
    d.length = 32 ∧ byteAt d 0 = state % 256 ∧ byteAt d 1 = fault % 256 ∧ u16At d 2 = 0 ∧ u32At d 4 = anchor % 2 ^ 32 ∧
    u32At d 8 = retire % 2 ^ 32 ∧ u32At d 12 = completed % 2 ^ 32 ∧ u32At d 16 = taken % 2 ^ 32 ∧
    ∀ i, 20 ≤ i → i < 32 → byteAt d i = 0 := by
  intro d
  exact ⟨rfl, byteAt_of_drop (rest := d.drop 1) rfl, byteAt_of_drop (rest := d.drop 2) rfl, rfl,
    u32At_of_drop (rest := d.drop 8) rfl, u32At_of_drop (rest := d.drop 12) rfl, u32At_of_drop (rest := d.drop 16) rfl,
    u32At_of_drop (rest := d.drop 20) rfl, fun i far _ => byteAt_of_zeros (j := 12) (n := 20) rfl far⟩

/-- Where the fields of a live block stand. -/
theorem live_layout (state why tool tag toolType strokes : Nat) (depth force : Int) :
    let d := put8 state ++ put8 why ++ put8 tool ++ zeros 1 ++ put16 tag ++ put16 toolType ++ putS32 depth ++ putS32 force ++
      put32 strokes ++ zeros 12
    d.length = 32 ∧ byteAt d 0 = state % 256 ∧ byteAt d 1 = why % 256 ∧ byteAt d 2 = tool % 256 ∧ byteAt d 3 = 0 ∧
    u16At d 4 = tag % 2 ^ 16 ∧ u16At d 6 = toolType % 2 ^ 16 ∧ u32At d 8 = pattern32 depth ∧ u32At d 12 = pattern32 force ∧
    u32At d 16 = strokes % 2 ^ 32 ∧ ∀ i, 20 ≤ i → i < 32 → byteAt d i = 0 := by
  intro d
  exact ⟨rfl, byteAt_of_drop (rest := d.drop 1) rfl, byteAt_of_drop (rest := d.drop 2) rfl,
    byteAt_of_drop (rest := d.drop 3) rfl, rfl, u16At_of_drop (rest := d.drop 6) rfl, u16At_of_drop (rest := d.drop 8) rfl,
    s32At_of_drop (rest := d.drop 12) rfl, s32At_of_drop (rest := d.drop 16) rfl, u32At_of_drop (rest := d.drop 20) rfl,
    fun i far _ => byteAt_of_zeros (j := 12) (n := 20) rfl far⟩

theorem devicePart_bytes (s : State) : s.devicePart.length = 16 ∧ byteAt s.devicePart 0 = s.control.device.code ∧
    ∀ i, 1 ≤ i → i < 16 → byteAt s.devicePart i = 0 := by
  have code : s.control.device.code < 256 := by cases s.control.device <;> decide
  have first : byteAt s.devicePart 0 = s.control.device.code % 256 := byteAt_of_drop (rest := zeros 15) rfl
  exact ⟨rfl, by rw [first, Nat.mod_eq_of_lt code], fun i far _ => byteAt_of_zeros (j := 15) (n := 1) rfl far⟩

theorem chainPart_bytes (s : State) : chainBytes s.reader s.chainPart := by
  have code : s.reader.state.code < 256 := by cases s.reader.state <;> decide
  have fault : s.reader.chainFault.code < 256 := by cases s.reader.chainFault <;> decide
  obtain ⟨length, c0, c1, c2, anchor, retire, completed, taken, rest⟩ := chain_layout s.reader.state.code
    s.reader.chainFault.code s.reader.anchor s.reader.retireMark s.reader.completed.toNat s.reader.takenCount.toNat
  rw [Nat.mod_eq_of_lt code] at c0
  rw [Nat.mod_eq_of_lt fault] at c1
  rw [Nat.mod_eq_of_lt (BitVec.isLt _)] at completed taken
  refine ⟨length, c0, c1, c2, anchor, retire.trans ?_, completed, taken, rest⟩
  unfold Reader.retireMark
  cases s.reader.taken <;> rfl

theorem livePart_bytes (s : State) (h : HeadId) : liveBytes s h (s.livePart h) := by
  have state : (s.head h).state.code < 256 := by cases (s.head h).state <;> decide
  have why : (s.shownHalt h).code < 256 := by cases s.shownHalt h <;> decide
  have tool : toolStateCode (s.tool h).state (s.tool h).worn < 256 := by
    cases (s.tool h).state <;> cases (s.tool h).worn <;> decide
  have tag : (s.head h).shownTag < 2 ^ 16 := by
    unfold Head.shownTag
    split
    · decide
    · exact BitVec.isLt _
  obtain ⟨length, b0, b1, b2, b3, b4, b6, b8, b12, b16, rest⟩ := live_layout (s.head h).state.code (s.shownHalt h).code
    (toolStateCode (s.tool h).state (s.tool h).worn) (s.head h).shownTag (s.tool h).toolType.toNat (s.tool h).strokes
    (s.sense h).depth (s.shownForce h)
  rw [Nat.mod_eq_of_lt state] at b0
  rw [Nat.mod_eq_of_lt why] at b1
  rw [Nat.mod_eq_of_lt tool] at b2
  rw [Nat.mod_eq_of_lt tag] at b4
  rw [Nat.mod_eq_of_lt (BitVec.isLt _)] at b6
  refine ⟨length, b0, b1, b2.trans ?_, b3, b4.trans ?_, b6, b8, b12.trans ?_, b16, rest⟩
  · cases (s.tool h).state <;> rfl
  · unfold Head.shownTag
    cases (s.head h).current <;> rfl
  · have lead : s.leads h = true ↔ ¬((s.head h).gang = true ∧ h ≠ h.primary) := by
      rw [leads_iff, not_and_not_right]
      exact ⟨fun own gang => (own gang).symm, fun own gang => (own gang).symm⟩
    unfold State.shownForce
    split
    · next own => rw [if_neg (lead.mp own)]
    · next half => rw [if_pos (by by_contra no; exact half (lead.mpr no))]; rfl

/-! ### A part asked for (R165) -/

theorem requestPart_asks (p : HeaderPart) (s : State) : partAsked p (partOffset p) s (requestPart p s) := by
  have found : ∀ r, s.bus.find? (fun r => r.access = .header p && r.fate = .live) = some r →
      r ∈ s.bus ∧ r.access = .header p ∧ r.fate = .live := fun r found =>
    ⟨List.mem_of_find?_eq_some found, by simpa using List.find?_some found⟩
  have mark : ∀ q, (s.rewrite.put p true).marked q = (decide (q = p) || s.rewrite.marked q) := fun q => by
    cases p <;> cases q <;> simp [RewriteMarks.put, RewriteMarks.marked, Four.get_set]
  refine ⟨fun none => by simp only [requestPart, none, and_self], fun a area => ⟨fun alone => ?_, fun some waits => ?_, fun some granted => ?_⟩⟩
  · have none : s.bus.find? (fun r => r.access = .header p && r.fate = .live) = none := by
      rw [List.find?_eq_none]
      intro r hr mine
      exact alone r hr (by simpa using mine)
    simp only [requestPart, area, none]
    exact ⟨rfl, _, rfl, ⟨rfl, rfl⟩, rfl, by rw [State.busAddr, area]⟩
  · obtain ⟨r, hr, mine⟩ := some
    have some : ∃ q, s.bus.find? (fun r => r.access = .header p && r.fate = .live) = some q :=
      Option.isSome_iff_exists.mp (List.find?_isSome.mpr ⟨r, hr, by simpa using mine⟩)
    obtain ⟨q, first⟩ := some
    obtain ⟨hq, mine⟩ := found q first
    simp only [requestPart, area, first, waits q hq mine]
    exact ⟨rfl, rfl⟩
  · obtain ⟨r, hr, mine⟩ := some
    have some : ∃ q, s.bus.find? (fun r => r.access = .header p && r.fate = .live) = some q :=
      Option.isSome_iff_exists.mp (List.find?_isSome.mpr ⟨r, hr, by simpa using mine⟩)
    obtain ⟨q, first⟩ := some
    obtain ⟨hq, mine⟩ := found q first
    simp only [requestPart, area, first, granted q hq mine, if_true, true_and]
    exact mark

theorem partAsked.of_base {p : HeaderPart} {offset : Nat} {s u t : State} (asked : partAsked p offset u t)
    (area : u.control.area = s.control.area) (bus : u.bus = s.bus) (rewrite : u.rewrite = s.rewrite) :
    partAsked p offset s t := by
  unfold partAsked at *
  rw [← area, ← bus, ← rewrite]
  exact asked

theorem setDevice_asks (d : DeviceState) (s : State) : if d = s.control.device then setDevice d s = s
    else (setDevice d s).control = flagSet 0x80#8 { s.control with device := d } ∧
      partAsked .device 0 s (setDevice d s) := by
  split
  · next same => exact if_pos same.symm
  · next other =>
    have acts : setDevice d s = requestPart .device (raise .runst (modControl (fun c => { c with device := d }) s)) :=
      if_neg (Ne.symm other)
    have control : (setDevice d s).control = (raise .runst (modControl (fun c => { c with device := d }) s)).control := by
      rw [acts, (requestPart_touches ..).control_eq]
    have asked := requestPart_asks .device (raise .runst (modControl (fun c => { c with device := d }) s))
    refine ⟨control.trans (control_raise_flagSet ..), ?_⟩
    rw [acts]
    exact asked.of_base (raise_area ..) rfl rfl

theorem putState_asks (st : HeadState) (h : HeadId) (s : State) : if st = (s.head h).state then putState st h s = s
    else ((putState st h s).head h).state = st ∧ partAsked (.live h) (128 + 32 * h.toNat) s (putState st h s) := by
  split
  · next same => exact if_pos same.symm
  · next other =>
    refine ⟨by rw [head_putState, if_pos rfl], ?_⟩
    rw [show putState st h s = _ from if_neg (Ne.symm other)]
    exact (requestPart_asks (.live h) (modHead h (fun x => { x with state := st }) s)).of_base rfl rfl rfl

theorem putHaltReason_asks (why : Reason) (h : HeadId) (s : State) :
    if why = (s.head h).lastHalt then putHaltReason why h s = s
    else ((putHaltReason why h s).head h).lastHalt = why ∧
      partAsked (.live h) (128 + 32 * h.toNat) s (putHaltReason why h s) := by
  split
  · next same => exact if_pos same.symm
  · next other =>
    have acts : putHaltReason why h s = requestPart (.live h) (modHead h (fun x => { x with lastHalt := why }) s) :=
      if_neg (Ne.symm other)
    have head : (putHaltReason why h s).head h = (modHead h (fun x => { x with lastHalt := why }) s).head h := by
      rw [acts, State.head, requestPart_heads]
      rfl
    refine ⟨by rw [head, head_modHead_same], ?_⟩
    rw [acts]
    exact (requestPart_asks (.live h) (modHead h (fun x => { x with lastHalt := why }) s)).of_base rfl rfl rfl

theorem changeTool_asks (h : HeadId) (f : Tool → Tool) (s : State) : let after := f (s.tool h)
    (changeTool h f s).tool h = after ∧
    if after.state ≠ (s.tool h).state ∨ after.worn = true ∧ (s.tool h).worn = false then
      (changeTool h f s).control = flagSet 0x10#8 s.control ∧
      partAsked (.live h) (128 + 32 * h.toNat) s (changeTool h f s)
    else (changeTool h f s).control = s.control ∧ (changeTool h f s).bus = s.bus ∧
      (changeTool h f s).rewrite = s.rewrite := by
  intro after
  have turn : ((s.tool h).state ≠ after.state ∨ after.worn = true ∧ (!(s.tool h).worn) = true) ↔
      (after.state ≠ (s.tool h).state ∨ after.worn = true ∧ (s.tool h).worn = false) := by
    rw [Bool.not_eq_true', ne_comm]
  let a := modTool h (fun _ => after) s
  refine ⟨by rw [State.tool, changeTool_tools, Four.get_set_same], ?_⟩
  split
  · next shown =>
    have acts : changeTool h f s = requestPart (.live h) (raise .tool a) := if_pos (turn.mpr shown)
    rw [acts, (requestPart_touches ..).control_eq]
    exact ⟨control_raise_flagSet .., (requestPart_asks (.live h) (raise .tool a)).of_base (raise_area ..) rfl rfl⟩
  · next hidden =>
    have acts : changeTool h f s = a := if_neg fun shown => hidden (turn.mp shown)
    rw [acts]
    exact ⟨rfl, rfl, rfl⟩

/-! ### A part granted, and written -/

theorem grantOf_header (s : State) {r : BusReq} {p : HeaderPart} (access : r.access = .header p) :
    s.grantOf r = { r with granted := true, data := s.partBytes p, len := (s.partBytes p).length } := by
  simp only [State.grantOf, access]

/-- The part asked for again while nothing is granted leaves its mark cleared. -/
theorem requestPart_again {p : HeaderPart} {s : State} (area : s.control.area ≠ none)
    (waiting : ∀ r ∈ s.bus, r.granted = false) : (requestPart p s).rewrite = s.rewrite ∧
    ∃ q ∈ (requestPart p s).bus, q.access = .header p ∧ q.fate = .live := by
  obtain ⟨a, area⟩ := Option.ne_none_iff_exists'.mp area
  obtain ⟨alone, some, _⟩ := (requestPart_asks p s).2 a area
  by_cases out : ∃ r ∈ s.bus, r.access = .header p ∧ r.fate = .live
  · obtain ⟨bus, rewrite⟩ := some out fun r hr _ => waiting r hr
    refine ⟨rewrite, ?_⟩
    rw [bus]
    exact out
  · obtain ⟨rewrite, r, bus, mine, _⟩ := alone fun r hr mine => out ⟨r, hr, mine⟩
    refine ⟨rewrite, r, ?_, mine⟩
    rw [bus]
    exact List.mem_append_right _ (List.mem_singleton.mpr rfl)

theorem put_false_marked (m : RewriteMarks) (p : HeaderPart) : (m.put p false).marked p = false := by
  cases p <;> simp [RewriteMarks.put, RewriteMarks.marked]

/-- HEADER_WRITE_DONE for the part in flight (R165). -/
theorem headerWriteDone_answers {s : State} {p : HeaderPart} {r : BusReq} {rest : List BusReq} (one : OneInFlight s)
    (bus : s.bus = r :: rest) (granted : r.granted = true) (live : r.fate = .live) (access : r.access = .header p) :
    Answers (.headerWriteDone p) s (fun t =>
      t.rewrite.marked p = false ∧ t.control = s.control ∧ sameBlocks s t ∧
      (s.rewrite.marked p = true → s.control.area ≠ none →
        ∃ q ∈ t.bus, q.access = .header p ∧ q.fate = .live) ∧
      (s.rewrite.marked p = false →
        (t.bus.map BusReq.key).Perm (rest.map BusReq.key))) := by
  have waiting : ∀ q ∈ rest, q.granted = false := fun q hq => one q (by rw [bus]; exact hq)
  have run : exec (.headerWriteDone p) s = finish (headerWritten p (s.withBus rest)) :=
    congrArg finish (onComplete_inFlight _ bus granted live access)
  by_cases marked : s.rewrite.marked p = true
  · let a : State := { s.withBus rest with rewrite := s.rewrite.put p false }
    have acts : headerWritten p (s.withBus rest) = requestPart p a := if_pos marked
    obtain ⟨b, w, touched⟩ := requestPart_touches p a
    have again := requestPart_again (p := p) (s := a)
    rw [acts] at run
    refine .of_finish run fun t e => ⟨?_, ?_, ?_, fun _ area => ?_, fun clear => by rw [marked] at clear; cases clear⟩
    · rw [e.rewrite]
      by_cases area : s.control.area = none
      · have idle : requestPart p a = a := by
          simp only [requestPart, show a.control.area = none from area]
        rw [idle]
        exact put_false_marked ..
      · rw [(again area waiting).1]
        exact put_false_marked ..
    · rw [e.control, touched]
      rfl
    · exact sameBlocks.trans (by rw [touched]; exact ⟨⟨rfl, rfl, rfl⟩, ⟨rfl, rfl⟩, ⟨rfl, rfl, rfl⟩, rfl, rfl, rfl⟩) e.sameBlocks
    · obtain ⟨q, hq, part, fate⟩ := (again area waiting).2
      obtain ⟨q', hq', part', _, fate', _⟩ := e.kept q hq
      exact ⟨q', hq', part'.trans part, fate'.trans fate⟩
  · have acts : headerWritten p (s.withBus rest) = s.withBus rest := if_neg marked
    rw [acts] at run
    refine .of_finish run fun t e => ⟨?_, e.control, e.sameBlocks, fun mark => absurd mark marked, fun _ => e.keys⟩
    rw [e.rewrite]
    exact Bool.eq_false_iff.mpr marked

/-- Settles O55. -/
theorem markedHeaderPartIsWrittenAgain : Obligations.MarkedHeaderPartIsWrittenAgain := by
  refine ⟨fun s => ⟨fun d => setDevice_asks d s, fun f => ⟨changeReader_reader f s, ?_⟩, fun h =>
      ⟨fun st => putState_asks st h s, fun why => putHaltReason_asks why h s, fun f => changeTool_asks h f s⟩⟩,
    fun s r p access => ?_, by decide,
    fun s p r rest one bus granted live access => headerWriteDone_answers one bus granted live access⟩
  · exact (requestPart_asks .chain (modReader f s)).of_base rfl rfl rfl
  · rw [grantOf_header s access]
    refine ⟨rfl, rfl, rfl, fun device => ?_, fun chain => ?_, fun h live => ?_⟩
    · subst device
      exact devicePart_bytes s
    · subst chain
      exact chainPart_bytes s
    · subst live
      exact livePart_bytes s h

end Sys2Proof.Machine

/-! ## The top reference -/

namespace Sys2Proof.Machine

/-! ### A counted stroke (R109, R111) -/

/-- One head's share of the counted strokes since its tare. -/
def Sense.strokeCounted (n : Sense) : Sense := { n with strokesSinceTare := min 255 (n.strokesSinceTare + 1) }

theorem queueWear_spec (t : Tool) : t.queueWear =
    if t.request = .wearWrite then { t with wearAgain := t.wearAgain || t.wearGranted } else t.queue .wearWrite := by
  unfold Tool.queueWear
  split
  · next wear =>
    rw [if_pos wear]
    split
    · next granted => rw [granted, Bool.or_true]
    · next not =>
      rw [show (t.wearAgain || t.wearGranted) = t.wearAgain by rw [Bool.eq_false_iff.mpr not, Bool.or_false]]
  · next none => rw [if_neg (by rw [none]; exact nofun)]
  · next identify => rw [if_neg (by rw [identify]; exact nofun)]

theorem countStroke_spec (t : Tool) : t.countStroke = strokeCounted t := by
  unfold strokeCounted
  cases state : t.state
  case ready =>
    simp only [Tool.countStroke, state, queueWear_spec, Tool.wornNow, ne_eq, not_true_eq_false, if_false]
    have worn : ∀ n : Nat, (!decide (t.wearLimit = 0) && decide (t.wearLimit ≤ n)) = decide (¬t.wearLimit = 0 ∧ t.wearLimit ≤ n) :=
      fun n => by simp
    split
    · simp
    · simp [Tool.queue]
  all_goals simp only [Tool.countStroke, state, ne_eq, reduceCtorEq, not_false_eq_true, if_true]

theorem countStroke_eq (h : HeadId) (s : State) : ∃ c b r, countStroke h s =
    { s with senses := s.senses.set h (s.sense h).strokeCounted, tools := s.tools.set h (strokeCounted (s.tool h)),
             control := c, bus := b, rewrite := r } := by
  obtain ⟨c, b, r, e⟩ := changeTool_eq h Tool.countStroke (modSense h Sense.strokeCounted s)
  rw [countStroke_spec] at e
  exact ⟨c, b, r, e⟩

theorem tool_countStrokes : ∀ (hs : List HeadId) (s : State), hs.Nodup → ∀ k,
    (eachHead countStroke hs s).tool k = if k ∈ hs then strokeCounted (s.tool k) else s.tool k
  | [], s, _, k => by simp [eachHead]
  | h :: hs, s, nd, k => by
    obtain ⟨fresh, nd⟩ := List.nodup_cons.mp nd
    obtain ⟨c, b, r, e⟩ := countStroke_eq h s
    rw [eachHead, tool_countStrokes hs _ nd k, e]
    by_cases own : k = h
    · subst own
      simp [fresh, State.tool]
    · simp [own, State.tool]

theorem sense_countStrokes (hs : List HeadId) (s : State) (nd : hs.Nodup) (k : HeadId) :
    (eachHead countStroke hs s).sense k = if k ∈ hs then (s.sense k).strokeCounted else s.sense k :=
  sense_eachHead (g := fun _ n => n.strokeCounted) (fun h s => by
    obtain ⟨c, b, r, e⟩ := countStroke_eq h s
    rw [e]) hs s nd k

/-- A tool that a counted stroke has worn out has raised TOOL. -/
theorem countStrokes_worn {hs : List HeadId} {s : State} {k : HeadId} (mem : k ∈ hs) (nd : hs.Nodup)
    (before : (s.tool k).worn = false) (after : (strokeCounted (s.tool k)).worn = true) :
    flagged .tool (eachHead countStroke hs s) := by
  induction hs generalizing s with
  | nil => cases mem
  | cons h hs ih =>
    obtain ⟨fresh, nd⟩ := List.nodup_cons.mp nd
    rcases List.mem_cons.mp mem with own | later
    · subst own
      have flag : flagged .tool (countStroke k s) :=
        changeTool_flagged (f := Tool.countStroke) (s := modSense k Sense.strokeCounted s)
          (.inr ⟨by rw [countStroke_spec]; exact after, before⟩)
      exact (Worked.eachHead (P := fun _ => True) (us := HeadId.all) hs (countStroke k s)
        fun j _ t => countStroke_worked j.mem_all t).frame.flagged flag
    · have other : k ≠ h := fun own => fresh (own ▸ later)
      obtain ⟨c, b, r, e⟩ := countStroke_eq h s
      have same : (countStroke h s).tool k = s.tool k := by
        rw [e]
        exact Four.get_set_other _ _ other
      exact ih later nd (by rw [same]; exact before) (by rw [same]; exact after)

/-! ### A unit at its top -/

theorem unit_letGo (x : HeadId) (s : State) : (letGo x s).unit x = s.unit x :=
  unit_congr (by rw [head_letGo]; split <;> rfl)

theorem letGo_tools (x : HeadId) (s : State) : (letGo x s).tools = s.tools := by
  unfold letGo
  split <;> rfl

theorem goRest_tools (st : HeadId → HeadState) (x : HeadId) (s : State) : (goRest st x s).tools = s.tools :=
  (goRest_press st x s).stands.1.1

theorem restHead_senses (st : HeadState) (h : HeadId) (s : State) : (restHead st h s).senses = s.senses := by
  unfold restHead
  rw [modHead_senses, putState]
  split
  · rfl
  · obtain ⟨b, r, e⟩ := requestPart_touches (.live h) (modHead h (fun x => { x with state := st }) (setPlan h .empty s))
    rw [e]
    rfl

theorem goRest_senses (st : HeadId → HeadState) (x : HeadId) (s : State) : (goRest st x s).senses = s.senses :=
  eachHead_keeps (P := fun t => t.senses = s.senses) (f := fun h => restHead (st h) h)
    (fun h t same => (restHead_senses (st h) h t).trans same) _ _ rfl

theorem restHead_plans (st : HeadState) (h : HeadId) (s : State) : (restHead st h s).plans = s.plans.set h .empty := by
  unfold restHead
  rw [modHead_plans, putState]
  split
  · rfl
  · obtain ⟨b, r, e⟩ := requestPart_touches (.live h) (modHead h (fun x => { x with state := st }) (setPlan h .empty s))
    rw [e]
    rfl

theorem plan_goRest {st : HeadId → HeadState} {x : HeadId} {s : State} {k : HeadId} (mine : k ∈ s.unit x) :
    (goRest st x s).plan k = .empty :=
  eachHead_sets (I := fun _ => True) (Q := fun k t => t.plan k = .empty) (f := fun h => restHead (st h) h)
    (fun _ _ _ => trivial) (fun h t _ => by rw [State.plan, restHead_plans, Four.get_set_same])
    (fun h k t other _ empty => by rw [State.plan, restHead_plans, Four.get_set_other _ _ other]; exact empty)
    _ trivial mine

section
variable {x k : HeadId} {s : State}

theorem tool_finishTop (mine : k ∈ s.unit x) : (finishTop x s).tool k =
    if (s.head x).contactReached then strokeCounted (s.tool k) else s.tool k := by
  rw [finishTop_eq, State.tool, goRest_tools, topDone]
  split
  · rw [← State.tool, tool_countStrokes _ _ (unit_nodup ..), unit_letGo, if_pos mine, State.tool, letGo_tools]
    rfl
  · rw [letGo_tools]
    rfl

theorem sense_finishTop (mine : k ∈ s.unit x) : (finishTop x s).sense k =
    if (s.head x).contactReached then (s.sense k).strokeCounted else s.sense k := by
  rw [finishTop_eq, State.sense, goRest_senses, topDone]
  split
  · rw [← State.sense, sense_countStrokes _ _ (unit_nodup ..), unit_letGo, if_pos mine, State.sense, letGo_senses]
    rfl
  · rw [letGo_senses]
    rfl

theorem plan_finishTop (mine : k ∈ s.unit x) : (finishTop x s).plan k = .empty := by
  rw [finishTop_eq]
  refine plan_goRest ?_
  rw [unit_congr (s := letGo x s) (by rw [State.head, topDone_heads]; rfl), unit_letGo]
  exact mine

theorem finishTop_worn (mine : k ∈ s.unit x) (before : (s.tool k).worn = false)
    (after : ((finishTop x s).tool k).worn = true) : flagged .tool (finishTop x s) := by
  rw [tool_finishTop mine] at after
  split at after
  · next reached =>
    have same : (letGo x s).tool k = s.tool k := congrArg (Four.get · k) (letGo_tools x s)
    have counted : flagged .tool (topDone x s) := by
      rw [topDone, if_pos reached]
      exact countStrokes_worn (by rw [unit_letGo]; exact mine) (unit_nodup ..) (by rw [same]; exact before)
        (by rw [same]; exact after)
    exact (goRest_worked (P := fun _ => True) (subset_all _) (restState_atRest _)).frame.flagged counted
  · rw [before] at after
    cases after

theorem finishTop_released (held : (s.head x).claim = .held) :
    (finishTop x s).claimMsgs = s.claimMsgs.set x (s.claimMsgs.get x ++ [.release]) := by
  have go : (letGo x s).claimMsgs = s.claimMsgs.set x (s.claimMsgs.get x ++ [.release]) := by
    simp only [letGo, held]
    rfl
  have done : (topDone x s).claimMsgs = (letGo x s).claimMsgs := by
    unfold topDone
    split
    · refine eachHead_keeps (P := fun t => t.claimMsgs = (letGo x s).claimMsgs) (f := countStroke) (fun h t same => ?_) _ _ rfl
      obtain ⟨c, b, r, e⟩ := countStroke_eq h t
      rw [e]
      exact same
    · rfl
  rw [finishTop_eq, (goRest_press ..).stands.2.1.2.1, done, go]

/-- The heads of a unit on their brakes, those at the top. -/
def topsHeld (x : HeadId) (s : State) : State := eachHead holdTop (s.unit x) s

theorem topsHeld_press (x : HeadId) (s : State) : PressTouched s (topsHeld x s) := eachHead_press holdTop_press ..

theorem topsHeld_senses (x : HeadId) (s : State) : (topsHeld x s).senses = s.senses := by
  refine eachHead_keeps (P := fun t => t.senses = s.senses) (f := holdTop) (fun h t same => ?_) _ _ rfl
  unfold holdTop
  split <;> exact same

theorem topsHeld_marks (x : HeadId) (s : State) (k : HeadId) :
    ((topsHeld x s).head k).contactReached = (s.head k).contactReached ∧ ((topsHeld x s).head k).claim = (s.head k).claim := by
  rw [topsHeld, head_holdTops]
  split
  · split <;> exact ⟨rfl, rfl⟩
  · exact ⟨rfl, rfl⟩

/-- Every head of the unit stands at its top. -/
def State.atTops (s : State) (x : HeadId) : Prop := ∀ k ∈ s.unit x, (s.ramTop k || (s.head k).atTop) = true

/-- A unit of which every head is at its top rests, its stroke counted when it had contact (R67, R73). -/
theorem checkTop_ends (tops : s.atTops x) (mine : k ∈ s.unit x) :
    let u := checkTop x s
    (u.head k).state = s.restState k ∧ (u.head k).setpoint = 0 ∧ (u.head k).brake = true ∧
    (u.head k).guardArmed = false ∧ (u.head k).current = none ∧ (u.head k).gang = false ∧
    (u.head k).contactReached = false ∧ u.plan k = .empty ∧
    u.tool k = (if (s.head x).contactReached then strokeCounted (s.tool k) else s.tool k) ∧
    ((s.tool k).worn = false → (u.tool k).worn = true → flagged .tool u) ∧
    ((s.head x).contactReached = true → (u.sense k).strokesSinceTare = min 255 ((s.sense k).strokesSinceTare + 1)) := by
  intro u
  have acts : u = finishTop x (topsHeld x s) := checkTop_of_tops tops
  have mine' : k ∈ (topsHeld x s).unit x := by rw [topsHeld, unit_holdTops]; exact mine
  have tool : (topsHeld x s).tool k = s.tool k := congrArg (Four.get · k) (topsHeld_press x s).stands.1.1
  have sense : (topsHeld x s).sense k = s.sense k := congrArg (Four.get · k) (topsHeld_senses x s)
  have held : Confined HeadId.all s (topsHeld x s) :=
    (Worked.eachHead (P := fun _ => True) _ _ fun h _ t => holdTop_worked h.mem_all t).frame
  have rest : (topsHeld x s).restState k = s.restState k := held.restState k
  have reached := (topsHeld_marks x s x).1
  have head := head_finishTop mine'
  rw [rest] at head
  have worn := finishTop_worn mine'
  rw [tool] at worn
  rw [acts]
  refine ⟨by rw [head]; rfl, by rw [head]; rfl, by rw [head]; rfl, by rw [head]; rfl, by rw [head]; rfl, by rw [head]; rfl,
    by rw [head]; rfl, plan_finishTop mine', by rw [tool_finishTop mine', reached, tool], worn, fun counted => ?_⟩
  rw [sense_finishTop mine', reached, if_pos counted, sense]
  rfl

theorem checkTop_released (tops : s.atTops x) (held : (s.head x).claim = .held) :
    (checkTop x s).claimMsgs = s.claimMsgs.set x (s.claimMsgs.get x ++ [.release]) ∧
    ((checkTop x s).head x).claim = .none := by
  have acts : checkTop x s = finishTop x (topsHeld x s) := checkTop_of_tops tops
  have mine : x ∈ (topsHeld x s).unit x := mem_unit_self ..
  rw [acts, finishTop_released ((topsHeld_marks x s x).2.trans held), head_finishTop mine,
    (topsHeld_press x s).stands.2.1.2.1]
  exact ⟨rfl, if_pos rfl⟩

theorem checkTop_depth (x : HeadId) (s : State) (k : HeadId) : ((checkTop x s).sense k).depth = (s.sense k).depth := by
  have held : (topsHeld x s).sense k = s.sense k := congrArg (Four.get · k) (topsHeld_senses x s)
  have done : ((finishTop x (topsHeld x s)).sense k).depth = ((topsHeld x s).sense k).depth := by
    rw [finishTop_eq, State.sense, goRest_senses, topDone]
    split
    · rw [← State.sense, sense_countStrokes _ _ (unit_nodup ..), State.sense, letGo_senses]
      split <;> rfl
    · rw [letGo_senses]
      rfl
  unfold checkTop
  dsimp only
  split
  · exact done.trans (congrArg Sense.depth held)
  · exact congrArg Sense.depth held
end

/-! ### RAM_TOP rises -/

/-- The line at its top and the depth at 0. -/
def toppedOut (h : HeadId) (s : State) : State := modSense h (fun n => { n with depth := 0 }) (setRamTop h true s)

theorem toppedOut_ramTop (h : HeadId) (s : State) (k : HeadId) :
    (toppedOut h s).ramTop k = if k = h then true else s.ramTop k := by
  show (((s.inputs.ramTop.set h (Line.settle true)).get k).level) = _
  rw [Four.get_set]
  split <;> rfl

theorem toppedOut_strokes (h : HeadId) (s : State) (k : HeadId) :
    ((toppedOut h s).sense k).strokesSinceTare = (s.sense k).strokesSinceTare := by
  rw [toppedOut, State.sense, modSense_senses, Four.get_set]
  split
  · next own => rw [own]; rfl
  · rfl

theorem exec_ramTopRise {h : HeadId} {s : State} (below : s.ramTop h = false) : exec (.ramTopRise h) s =
    finish (if (s.head (s.lead h)).state.rises then checkTop (s.lead h) (toppedOut h s) else toppedOut h s) :=
  congrArg finish (if_neg (by rw [below]; exact Bool.false_ne_true))

theorem rises_iff (st : HeadState) : st.rises = true ↔ st = .retract ∨ st = .recover := by cases st <;> decide

theorem exists_partner {s : State} {h : HeadId} (gang : (s.head h).gang = true) : ∃ k ∈ s.unit h, k ≠ h := by
  rw [State.unit, if_pos gang]
  by_cases own : h = h.primary
  · exact ⟨h.companion, List.mem_cons_of_mem _ List.mem_cons_self, fun same => h.companion_ne_primary (same.trans own)⟩
  · exact ⟨h.primary, List.mem_cons_self, fun same => own same.symm⟩

/-- Settles O38. -/
theorem topReferenceEndsTheRise : Obligations.TopReferenceEndsTheRise := by
  intro s h below
  let x := s.lead h
  let b := toppedOut h s
  have top : b.ramTop h = true := by rw [toppedOut_ramTop, if_pos rfl]
  have touched : UnitTouched b (if (s.head x).state.rises then checkTop x b else b) := by
    split
    · exact checkTop_unit x b
    · exact .rfl
  have claims : (if (s.head x).state.rises then checkTop x b else b).claims = s.claims := by
    split
    · exact (checkTop_worked (P := fun _ => True) (subset_all _)).frame.claims
    · rfl
  have depth : ((if (s.head x).state.rises then checkTop x b else b).sense h).depth = 0 := by
    have zero : (b.sense h).depth = 0 := by
      show ((modSense h (fun n => { n with depth := 0 }) (setRamTop h true s)).sense h).depth = 0
      rw [State.sense, modSense_senses, Four.get_set_same]
    split
    · rw [checkTop_depth, zero]
    · exact zero
  have rising : ∀ {t}, (s.head x).state = .retract ∨ (s.head x).state = .recover →
      Ended (if (s.head x).state.rises then checkTop x b else b) t → Ended (checkTop x b) t := fun rises e => by
    rwa [if_pos ((rises_iff _).mpr rises)] at e
  refine .of_finish (exec_ramTopRise below) fun t e => ?_
  have inputs : t.inputs = b.inputs := by
    obtain ⟨_, _, _, _, _, _, _, _, _, same⟩ := touched
    rw [e.inputs, same]
  have topped : t.ramTop h = true := by
    rw [← top, State.ramTop, State.ramTop, inputs]
  refine ⟨topped, by rw [e.sense, depth], by rw [e.claims, claims], by rw [e.reader, touched.reader]; rfl,
    by rw [State.headBusy, topped, Bool.not_true, Bool.or_false], fun retract recover => ?_, fun alone rises => ?_,
    fun gang together rises others => ?_, fun gang together rises others => ?_⟩
  · have stays : (if (s.head x).state.rises then checkTop x b else b) = b :=
      if_neg fun rises => ((rises_iff _).mp rises).elim retract recover
    rw [stays] at e
    exact ⟨e.heads, e.tools, e.toolBus⟩
  · have lead : x = h := if_neg (by rw [alone]; exact Bool.false_ne_true)
    have unit : b.unit x = [h] := (if_neg (by rw [lead]; exact fun gang => by cases alone.symm.trans gang)).trans (by rw [lead])
    have tops : b.atTops x := fun k hk => by
      rw [unit, List.mem_singleton] at hk
      rw [hk, top, Bool.true_or]
    have ended := rising (by rw [lead]; exact rises) e
    obtain ⟨state, setpoint, brake, _, current, _, reached, plan, tool, worn, strokes⟩ :=
      checkTop_ends (k := h) tops (by rw [unit]; exact List.mem_singleton.mpr rfl)
    rw [lead] at ended state setpoint brake current reached plan tool worn strokes tops
    refine ⟨by rw [ended.head, state]; rfl, by rw [ended.head, setpoint], by rw [ended.head, brake], by rw [ended.head, current],
      by rw [ended.head, reached], by rw [ended.plan, plan], fun held => ?_, by rw [ended.tool, tool]; rfl, ?_, fun counted => ?_⟩
    · obtain ⟨claims, none⟩ := checkTop_released tops held
      rw [ended.claimMsgs, ended.head, claims, none, Four.get_set_same]
      exact ⟨rfl, rfl⟩
    · rw [ended.tool]
      exact fun before after => ended.flagged (worn before after)
    · rw [ended.sense, strokes counted, toppedOut_strokes]
  · have unit : b.unit x = s.unit h := (unit_of_mem together (mem_unit_lead together h)).symm
    have state : (s.head x).state = (s.head h).state := state_lead together h
    obtain ⟨k, mine, other⟩ := exists_partner gang
    obtain ⟨away, low⟩ := others k other mine
    have ended := rising (by rw [state]; exact rises) e
    have acts : checkTop x b = topsHeld x b :=
      checkTop_of_below (k := k) (by rw [unit]; exact mine) (by rw [toppedOut_ramTop, if_neg other]; exact low) away
    have head : (topsHeld x b).head h = (s.head h).held := by
      rw [topsHeld, head_holdTops, if_pos (by rw [unit]; exact mem_unit_self s h), if_pos top]
      rfl
    rw [ended.head, acts, head]
    exact ⟨rfl, rfl, rfl, rfl, rfl⟩
  · have lead : x = h.primary := if_pos gang
    have unit : b.unit x = s.unit h := (unit_of_mem together (mem_unit_lead together h)).symm
    have state : (s.head x).state = (s.head h).state := state_lead together h
    have ended := rising (by rw [state]; exact rises) e
    have tops : b.atTops x := fun k hk => by
      rw [unit] at hk
      by_cases own : k = h
      · rw [own, top, Bool.true_or]
      · rcases others k hk own with at_ | level
        · rw [show (b.head k).atTop = true from at_, Bool.or_true]
        · rw [toppedOut_ramTop, if_neg own, level, Bool.true_or]
    rw [← lead]
    refine ⟨fun k mine => ?_, fun held => ?_⟩
    · have done := checkTop_ends (k := k) tops (by rw [unit]; exact mine)
      simp only [toppedOut_strokes, b] at done
      rw [ended.head, ended.plan, ended.tool, ended.sense]
      obtain ⟨state, setpoint, brake, guard, current, gone, reached, plan, tool, worn, strokes⟩ := done
      exact ⟨state, setpoint, brake, guard, current, gone, reached, plan, tool,
        fun before after => ended.flagged (worn before after), strokes⟩
    · obtain ⟨claims, none⟩ := checkTop_released tops held
      rw [ended.claimMsgs, ended.head, claims, none]
      exact ⟨rfl, rfl⟩

end Sys2Proof.Machine

/-! ## The HALT command -/

namespace Sys2Proof.Machine

/-! ### The plan at a halt (R38, R42) -/

theorem halted_verdict (envs : List Envelope) (g : Group) (dc : Int) {how : WindowEnd} (early : how ≠ .closes) (m : Member) :
    m.verdictAt envs g dc how = if (m.judgedOn envs).isSome then .notChecked else .unjudged := by
  unfold Member.verdictAt
  cases m.judgedOn envs with
  | none => rfl
  | some e => simp [early]

theorem closeAll_halted (p : Plan) : p.closeAll .halted = p.halted := by
  unfold Plan.closeAll Plan.halted
  congr 1
  refine List.map_congr_left fun c _ => ?_
  congr 1
  refine List.map_congr_left fun g _ => ?_
  unfold Group.halted
  cases window : g.window
  case closed => rfl
  case opened => simp [Group.close, halted_verdict]
  case unopened => simp [Group.close, halted_verdict]

/-- What a halt hands over of a plan it closes (R42, R45). -/
theorem haltClose_spec (why : Reason) (p : Plan) : (p.haltClose why).1 = p.halted ∧
    (p.haltClose why).2.entries = p.halted.entries ∧
    (p.haltClose why).2.failed = p.halted.entries.countP (fun e => decide (e.verdict = .noEngage ∨
      e.verdict = .buckle ∨ e.verdict = .high ∨ e.verdict = .low ∨ e.verdict = .noData)) ∧
    (p.haltClose why).2.notChecked = p.halted.entries.countP (fun e => e.verdict = .notChecked) ∧
    (p.haltClose why).2.unjudged = p.halted.entries.countP (fun e => e.verdict = .unjudged) := by
  unfold Plan.haltClose
  rw [closeAll_halted]
  refine ⟨rfl, rfl, List.countP_congr fun e _ => ?_, rfl, rfl⟩
  cases e.verdict <;> decide

theorem haltPlan_of_open {x : HeadId} {s : State} {p : Plan} (why : Reason) (built : s.plan x = .built p)
    (running : p.phase ≠ .closed) : haltPlan why x s =
      modHead x (fun m => { m with handed := some (p.haltClose why).2 }) (setPlan x (.built p.halted) s) := by
  cases phase : p.phase
  case closed => exact absurd phase running
  all_goals
    simp only [haltPlan, built, phase]
    rw [show p.haltClose why = (p.halted, (p.haltClose why).2) by rw [← (haltClose_spec why p).1]]

/-- A halt in a stroke closes the plan and hands over what it makes of it (R42). -/
theorem haltUnit_closes {x : HeadId} {s : State} {p : Plan} (why : Reason) (built : s.plan x = .built p)
    (running : p.phase ≠ .closed) : (haltUnit why x s).plan x = .built p.halted ∧
    ∀ o, (s.head x).current = some o → (s.head x).outcomeFixed = false → (s.head x).writeFailed = false →
      ∃ stage, ((haltUnit why x s).head x).closing = some
        { order := o
          result := { (p.haltClose why).2 with outcome := .aborted, reason := why }
          contactDepth := (s.head x).contactDepth.getD 0
          seatDepth := (s.head x).pressEnd.getD 0
          stroke := true
          stage := stage } := by
  let told := haltTold why x s
  let a := raise .halt (eachHead (haltHead why) (s.unit x) told)
  have tells : told = _ := haltPlan_of_open (s := haltContact x s) why ((plan_haltContact x s x).trans built) running
  have plan : a.plan x = .built p.halted := by
    have kept : (eachHead (haltHead why) (s.unit x) told).plans = told.plans :=
      eachHead_keeps (P := fun t => t.plans = told.plans) (fun h t same => (haltHead_plans why h t).trans same) _ _ rfl
    rw [State.plan, raise_plans, kept, tells, modHead_plans]
    exact Four.get_set_same ..
  have head : a.head x = ({ s.head x with handed := some (p.haltClose why).2 } : Head).haltedFor why := by
    have own : told.head x = { s.head x with handed := some (p.haltClose why).2 } := by
      rw [tells, head_modHead_same, head_setPlan, head_haltContact]
    rw [head_raise, head_eachHead_haltHead why _ _ (unit_nodup s x), if_pos (mem_unit_self s x), own]
  rw [haltUnit_eq]
  refine ⟨(plan_haltOutcome ..).trans plan, fun o order unfixed intact => ?_⟩
  rw [haltOutcome_of_open (o := o) why (by rw [head]; exact order) (by rw [head]; exact intact) (by rw [head]; exact unfixed)]
  obtain ⟨stage, noted⟩ := beginClosing_closing x (abortedClosing why o (a.head x)) a
  refine ⟨stage, noted.trans ?_⟩
  rw [head]
  rfl

/-! ### Halts without motion (R58, R71) -/

theorem haltStill_senses (h : HeadId) (s : State) : (haltStill h s).senses = s.senses.set h (s.sense h).disarm :=
  haltHead_senses ..

theorem haltStill_plans (h : HeadId) (s : State) : (haltStill h s).plans = s.plans.set h .empty := haltHead_plans ..

/-- A unit halted where it stands. -/
def stoodStill (x : HeadId) (s : State) : State := raise .halt (eachHead haltStill (s.unit x) s)

theorem head_stoodStill {x k : HeadId} {s : State} (mine : k ∈ s.unit x) :
    (stoodStill x s).head k = (s.head k).haltedFor .haltCmd := by
  rw [stoodStill, head_raise, head_eachHaltStill, if_pos mine]

theorem stoodStill_haltedBy (x : HeadId) (s : State) : haltedBy .haltCmd (s.unit x) (stoodStill x s) := by
  refine ⟨fun k mine => ?_, flagged_raise ..⟩
  have sense : (stoodStill x s).sense k = (s.sense k).disarm := by
    show (eachHead haltStill (s.unit x) s).sense k = _
    rw [sense_eachHead (g := fun _ n => n.disarm) haltStill_senses _ _ (unit_nodup s x), if_pos mine]
  rw [head_stoodStill mine, sense]
  exact ⟨rfl, rfl, rfl, rfl, rfl, rfl, rfl, rfl⟩

theorem stoodStill_plan {x k : HeadId} {s : State} (mine : k ∈ s.unit x) : (stoodStill x s).plan k = .empty :=
  eachHead_sets (I := fun _ => True) (Q := fun k t => t.plan k = .empty) (f := haltStill) (fun _ _ _ => trivial)
    (fun h t _ => by rw [State.plan, haltStill_plans, Four.get_set_same])
    (fun h k t other _ empty => by rw [State.plan, haltStill_plans, Four.get_set_other _ _ other]; exact empty)
    _ trivial mine

theorem stoodStill_worked {P : HeadState → Prop} {us : List HeadId} {x : HeadId} {s : State} (within : s.unit x ⊆ us) :
    Worked P us s (stoodStill x s) :=
  (haltStills_worked within).trans (raise_worked ..)

theorem stoodStill_press (x : HeadId) (s : State) : PressTouched s (stoodStill x s) :=
  (eachHead_press haltStill_press ..).trans (raise_touches ..).press

/-- The order ended with HALT_CMD before its stroke. -/
def haltEnded (x : HeadId) (s : State) : State := closeBefore .aborted .haltCmd x (endWork x s)

theorem unit_haltEnded (x : HeadId) (s : State) : (haltEnded x s).unit x = s.unit x := closeEnded_unit ..

theorem haltBefore_eq (x : HeadId) (s : State) : haltBefore x s = stoodStill x (haltEnded x s) := by
  rw [stoodStill, unit_haltEnded]
  rfl

theorem letGo_claimMsgs (x : HeadId) (s : State) :
    ((s.head x).claim = .held → (letGo x s).claimMsgs.get x = s.claimMsgs.get x ++ [.release]) ∧
    ((s.head x).claim = .requested → (letGo x s).claimMsgs.get x = s.claimMsgs.get x ++ [.withdraw]) := by
  refine ⟨fun claim => ?_, fun claim => ?_⟩ <;>
  · simp only [letGo, claim]
    exact Four.get_set_same ..

theorem haltEnded_claimMsgs (x : HeadId) (s : State) :
    ((s.head x).claim = .held → (haltEnded x s).claimMsgs.get x = s.claimMsgs.get x ++ [.release]) ∧
    ((s.head x).claim = .requested → (haltEnded x s).claimMsgs.get x = s.claimMsgs.get x ++ [.withdraw]) := by
  have closed : (haltEnded x s).claimMsgs = (endWork x s).claimMsgs := (closeBefore_press ..).stands.2.1.2.1
  rw [closed]
  unfold endWork
  extract_lets a b c d
  have heads : c.heads = s.heads := by
    dsimp only [c]
    split <;> exact eachModSense_heads (fun _ => Sense.abandonTare) ..
  have msgs : c.claimMsgs = s.claimMsgs := by
    have senses : b.claimMsgs = s.claimMsgs := eachHead_keeps (P := fun t => t.claimMsgs = s.claimMsgs)
      (f := fun h => modSense h Sense.abandonTare) (fun _ _ same => same) _ _ rfl
    dsimp only [c]
    split <;> exact senses
  have gone := letGo_claimMsgs x c
  rw [State.head, heads, msgs] at gone
  exact gone

theorem haltEnded_stop (x : HeadId) (s : State) : StopTouched s (haltEnded x s) :=
  (endWork_stop x s).trans (closeBefore_press ..).stop

/-! ### The command -/

/-- The reason set anew at a HALTED unit. -/
theorem head_haltAgain {x k : HeadId} {s : State} (mine : k ∈ s.unit x) :
    (haltAgain x s).head k = { s.head k with lastHalt := .haltCmd } := by
  rw [haltAgain, head_raise, head_eachHead (g := fun _ m => { m with lastHalt := .haltCmd })
    (fun h t => putHaltReason_heads ..) _ _ (unit_nodup s x), if_pos mine]

theorem haltAgain_press (x : HeadId) (s : State) : PressTouched s (haltAgain x s) :=
  (eachHead_press (putHaltReason_press .haltCmd) ..).trans (raise_touches ..).press

theorem hcmdHalt_of_motion {h x : HeadId} {s : State} (lead : x = s.lead h) (motion : (s.head x).state.inMotion = true) :
    hcmdHalt h s = haltUnit .haltCmd x s := by
  subst lead
  cases state : (s.head (s.lead h)).state
  case approach | seek | press | dwell | retract | recover => simp only [hcmdHalt, state]
  all_goals rw [state] at motion; cases motion

theorem hcmdHalt_of_before {h x : HeadId} {s : State} (lead : x = s.lead h)
    (before : (s.head x).state.beforeStroke = true) : hcmdHalt h s = stoodStill x (haltEnded x s) := by
  subst lead
  cases state : (s.head (s.lead h)).state
  case prepare | zoneWait | startWait => simp only [hcmdHalt, state, haltBefore_eq]
  all_goals rw [state] at before; cases before

theorem hcmdHalt_of_rest {h x : HeadId} {s : State} (together : GangsAligned s) (lead : x = s.lead h)
    (rest : (s.head x).state.atRest = true) : hcmdHalt h s = stoodStill x s := by
  subst lead
  have alone := unit_single (gang_of_atRest together rest)
  cases state : (s.head (s.lead h)).state
  case idle | offline => simp only [hcmdHalt, state, stoodStill, alone, eachHead]
  all_goals rw [state] at rest; cases rest

theorem hcmdHalt_of_halted {h x : HeadId} {s : State} (lead : x = s.lead h) (halted : (s.head x).state = .halted) :
    hcmdHalt h s = haltAgain x s := by
  subst lead
  simp only [hcmdHalt, halted]

/-- What HALT does at a unit, by the kind of state it meets (R71). -/
theorem hcmdHalt_cases {h x : HeadId} {s : State} (together : GangsAligned s) (lead : x = s.lead h) :
    hcmdHalt h s = haltUnit .haltCmd x s ∨ hcmdHalt h s = stoodStill x (haltEnded x s) ∨
    hcmdHalt h s = stoodStill x s ∨ (s.head x).state = .halted ∧ hcmdHalt h s = haltAgain x s := by
  rcases (s.head x).state.kinds with motion | before | idle | halted | offline
  · exact .inl (hcmdHalt_of_motion lead motion)
  · exact .inr (.inl (hcmdHalt_of_before lead before))
  · exact .inr (.inr (.inl (hcmdHalt_of_rest together lead (by rw [idle]; rfl))))
  · exact .inr (.inr (.inr ⟨halted, hcmdHalt_of_halted lead halted⟩))
  · exact .inr (.inr (.inl (hcmdHalt_of_rest together lead (by rw [offline]; rfl))))

theorem hcmdHalt_worked {h x : HeadId} {s : State} (together : GangsAligned s) (lead : x = s.lead h) :
    Worked (fun _ => True) (s.unit x) s (hcmdHalt h s) := by
  have all : s.unit x ⊆ s.unit x := List.Subset.refl _
  rcases hcmdHalt_cases together lead with acts | acts | acts | ⟨_, acts⟩ <;> rw [acts]
  · exact haltUnit_worked all _
  · rw [← haltBefore_eq]
    exact haltBefore_worked all
  · exact stoodStill_worked all
  · exact haltAgain_worked all

theorem hcmdHalt_stop {h x : HeadId} {s : State} (together : GangsAligned s) (lead : x = s.lead h) :
    StopTouched s (hcmdHalt h s) := by
  rcases hcmdHalt_cases together lead with acts | acts | acts | ⟨_, acts⟩ <;> rw [acts]
  · exact (haltUnit_press ..).stop
  · exact (haltEnded_stop x s).trans (stoodStill_press ..).stop
  · exact (stoodStill_press ..).stop
  · exact (haltAgain_press ..).stop

/-- Whatever it meets, a HALT leaves its unit HALTED with HALT_CMD. -/
theorem hcmdHalt_halts {h x : HeadId} {s : State} (together : GangsAligned s) (lead : x = s.lead h) :
    flagged .halt (hcmdHalt h s) ∧
    (∀ k ∈ s.unit x, ((hcmdHalt h s).head k).state = .halted ∧ ((hcmdHalt h s).head k).lastHalt = .haltCmd) ∧
    ((s.head x).state ≠ .halted → haltedBy .haltCmd (s.unit x) (hcmdHalt h s)) := by
  have whole : haltedBy .haltCmd (s.unit x) (hcmdHalt h s) → flagged .halt (hcmdHalt h s) ∧
      (∀ k ∈ s.unit x, ((hcmdHalt h s).head k).state = .halted ∧ ((hcmdHalt h s).head k).lastHalt = .haltCmd) ∧
      ((s.head x).state ≠ .halted → haltedBy .haltCmd (s.unit x) (hcmdHalt h s)) := fun halted =>
    ⟨halted.2, fun k mine => ⟨(halted.1 k mine).1, (halted.1 k mine).2.1⟩, fun _ => halted⟩
  rcases hcmdHalt_cases together lead with acts | acts | acts | ⟨halted, acts⟩
  · exact whole (by rw [acts]; exact haltedBy_haltUnit ..)
  · exact whole (by rw [acts, ← unit_haltEnded x s]; exact stoodStill_haltedBy ..)
  · exact whole (by rw [acts]; exact stoodStill_haltedBy ..)
  · rw [acts]
    refine ⟨flagged_raise .., fun k mine => ?_, fun other => absurd halted other⟩
    rw [head_haltAgain mine]
    exact ⟨(state_of_mem_unit together mine).trans halted, rfl⟩

/-- What HALT makes of an order before its stroke (R58). -/
theorem stoodStill_haltEnded {x : HeadId} (s : State) :
    (∀ o, openOrder s x o → closingBare x o .aborted .haltCmd (stoodStill x (haltEnded x s))) ∧
    (∀ k ∈ s.unit x, (stoodStill x (haltEnded x s)).plan k = .empty) ∧
    ((s.head x).claim = .held →
      (stoodStill x (haltEnded x s)).claimMsgs.get x = s.claimMsgs.get x ++ [.release]) ∧
    ((s.head x).claim = .requested →
      (stoodStill x (haltEnded x s)).claimMsgs.get x = s.claimMsgs.get x ++ [.withdraw]) := by
  have head : (stoodStill x (haltEnded x s)).head x = ((haltEnded x s).head x).haltedFor .haltCmd :=
    head_stoodStill (mem_unit_self ..)
  have msgs : (stoodStill x (haltEnded x s)).claimMsgs = (haltEnded x s).claimMsgs := (stoodStill_press ..).stands.2.1.2.1
  refine ⟨fun o waiting => ?_, fun k mine => stoodStill_plan (by rw [unit_haltEnded]; exact mine), ?_⟩
  · obtain ⟨_, _, order, unfixed, intact⟩ := waiting
    refine (closingBare_ended .aborted .haltCmd order unfixed intact).of_frame
      (stoodStill_worked (P := fun _ => True) (subset_all _)).frame ?_ ?_
    · rw [head]
      rfl
    · rw [head]
      rfl
  · rw [msgs]
    exact haltEnded_claimMsgs x s

/-- Settles O16, by the kind of state the command meets. -/
theorem haltCommandHalts : Obligations.HaltCommandHalts := by
  intro s h x together lead
  let a := setRefusal .none s
  obtain ⟨flag, halted, stood⟩ := hcmdHalt_halts (s := a) together lead
  have frame := (hcmdHalt_worked (s := a) together lead).frame
  have stop := hcmdHalt_stop (s := a) together lead
  have same : (s.head x).state = (s.head h).state := by rw [lead]; exact state_lead together h
  refine .of_finish (u := hcmdHalt h a) rfl fun t e => ?_
  have kept := stop.kept.trans e.stopKept
  refine ⟨by rw [e.control, frame.lastRefusal]; rfl, by rw [e.control, frame.device]; rfl, e.flagged flag,
    fun k mine => ?_, fun other => (stood (by rw [show (a.head x).state = (s.head h).state from same]; exact other)).of_ended e,
    fun o waiting => ?_, fun before => ?_, fun p motion built running => ?_, frame.othersSame.of_ended e, kept.claims, kept.tools,
    e.reader.trans stop.reader, kept.inputs⟩
  · obtain ⟨state, why⟩ := halted k mine
    have now : (t.head k).state = .halted := by rw [e.head, state]
    exact ⟨now, by rw [e.head, why], by simp [State.headBusy, now]⟩
  · rw [hcmdHalt_of_before (s := a) lead waiting.2.1] at e
    exact ((stoodStill_haltEnded a).1 o waiting).of_ended e
  · rw [hcmdHalt_of_before (s := a) lead before] at e
    obtain ⟨_, plan, held, asked⟩ := stoodStill_haltEnded (x := x) a
    exact ⟨fun k mine => (e.plan k).trans (plan k mine), fun claim => by rw [e.claimMsgs]; exact held claim,
      fun claim => by rw [e.claimMsgs]; exact asked claim⟩
  · rw [hcmdHalt_of_motion (s := a) lead motion] at e
    obtain ⟨plan, closes⟩ := haltUnit_closes (s := a) .haltCmd built running
    obtain ⟨_, entries, failed, notChecked, unjudged⟩ := haltClose_spec .haltCmd p
    refine ⟨(e.plan x).trans plan, fun o order unfixed intact => ?_⟩
    obtain ⟨stage, closing⟩ := closes o order unfixed intact
    exact ⟨_, by rw [e.head, closing], rfl, rfl, rfl, rfl, entries, failed, notChecked, unjudged, rfl, rfl⟩

end Sys2Proof.Machine

/-! ## Accepted edges -/

namespace Sys2Proof.Machine

/-! ### One line at a filter sample, one edge at the depth (R76 to R78) -/

theorem sense_modSense (h : HeadId) (f : Sense → Sense) (s : State) (k : HeadId) :
    (modSense h f s).sense k = if k = h then f (s.sense k) else s.sense k := by
  by_cases own : k = h
  · subst own
    rw [sense_modSense_same, if_pos rfl]
  · rw [sense_modSense_other own, if_neg own]

theorem edgeOf_eq (onA onB : Bool) : edgeOf onA onB =
    if onA then (if onB then some .both else some .lineA) else if onB then some .lineB else none := by
  cases onA <;> cases onB <;> rfl

theorem filter_spec (n : Sense) (a b : Bool) :
    (n.filter a b).1 = { n with
      pinA := a, pinB := b, seenA := a ≠ n.levelA && !n.seenA, seenB := b ≠ n.levelB && !n.seenB } ∧
    (n.filter a b).2 =
      (if a ≠ n.levelA ∧ n.seenA then (if b ≠ n.levelB ∧ n.seenB then some .both else some .lineA)
       else if b ≠ n.levelB ∧ n.seenB then some .lineB else none) := by
  refine ⟨rfl, ?_⟩
  simp only [Sense.filter, filterLine, edgeOf_eq, Bool.and_eq_true, decide_eq_true_eq]

/-- What an edge makes of the depth where no top reference holds it (R77, R78). -/
def movedDepth (edge : EncoderEdge) (top : Bool) (n : Sense) : Int :=
  if top then 0
  else
    match edge with
    | .lineA => clampDepth (if n.levelA = n.levelB then n.depth + 1 else n.depth - 1)
    | .lineB => clampDepth (if n.levelA = n.levelB then n.depth - 1 else n.depth + 1)
    | .both => clampDepth n.depth

theorem depthAfter_eq (s : State) (h : HeadId) (edge : EncoderEdge) :
    depthAfter s h edge = movedDepth edge (s.ramTop h) (s.sense h) := rfl

theorem edge_depth (edge : EncoderEdge) (top : Bool) (n : Sense) : (n.edge edge top).depth = movedDepth edge top n := by
  cases top
  · have step : ∀ a b : Bool, n.levelA = a → n.levelB = b → (n.edge edge false).depth = movedDepth edge false n := by
      intro a b onA onB
      cases a <;> cases b <;> cases edge <;>
        simp [Sense.edge, Sense.depthTo, Sense.accept, Sense.acceptA, Sense.acceptB, edgeOnA, edgeOnB, quadrature, quadStep,
          movedDepth, onA, onB, Int.sub_eq_add_neg]
    exact step _ _ rfl rfl
  · rfl

theorem edge_levels (edge : EncoderEdge) (top : Bool) (n : Sense) :
    (n.edge edge top).levelA = (n.levelA ^^ decide (edge ≠ .lineB)) ∧
    (n.edge edge top).levelB = (n.levelB ^^ decide (edge ≠ .lineA)) := by
  cases edge <;> simp [Sense.edge, Sense.accept, Sense.acceptA, Sense.acceptB, edgeOnA, edgeOnB]

/-- An edge changes only the lines and the depth. -/
theorem edge_eq (edge : EncoderEdge) (top : Bool) (n : Sense) : ∃ pa pb sa sb la lb, n.edge edge top =
    { n with pinA := pa, pinB := pb, seenA := sa, seenB := sb, levelA := la, levelB := lb, depth := movedDepth edge top n } := by
  rw [← edge_depth]
  cases edge <;> exact ⟨_, _, _, _, _, _, rfl⟩

/-! ### The stages of an edge -/

theorem sense_convertersDone (x : HeadId) (done : Converted) (s : State) (k : HeadId) :
    (convertersDone x done s).sense k =
      { s.sense k with scanning := (s.sense k).scanning && !(decide (k = x) && done.own) &&
          !((s.head x).gang && decide (k = x.companion) && done.companion) } := by
  unfold convertersDone
  dsimp only
  rw [head_modSense]
  split
  · next gang =>
    rw [gang, sense_modSense, sense_modSense]
    rcases Decidable.em (k = x.companion) with partner | partner <;>
    rcases Decidable.em (k = x) with own | own
    · simp only [if_pos partner, if_pos own, decide_eq_true partner, decide_eq_true own, Bool.true_and]
    · simp only [if_pos partner, if_neg own, decide_eq_true partner, decide_eq_false own, Bool.true_and, Bool.false_and,
        Bool.not_false, Bool.and_true]
    · simp only [if_neg partner, if_pos own, decide_eq_false partner, decide_eq_true own, Bool.true_and, Bool.and_false,
        Bool.false_and, Bool.not_false, Bool.and_true]
    · simp only [if_neg partner, if_neg own, decide_eq_false partner, decide_eq_false own, Bool.and_false,
        Bool.false_and, Bool.not_false, Bool.and_true]
  · next single =>
    rw [Bool.eq_false_iff.mpr single, sense_modSense]
    rcases Decidable.em (k = x) with own | own
    · rw [if_pos own, decide_eq_true own]
      simp
    · rw [if_neg own, decide_eq_false own]
      simp

theorem convertersDone_heads (x : HeadId) (done : Converted) (s : State) : (convertersDone x done s).heads = s.heads := by
  unfold convertersDone
  dsimp only
  split <;> rfl

theorem convertersDone_press (x : HeadId) (done : Converted) (s : State) : PressTouched s (convertersDone x done s) := by
  unfold convertersDone
  dsimp only
  split
  · exact (modSense_press ..).trans (modSense_press ..)
  · exact modSense_press ..

/-- The edge taken in at its head, before the trigger and the skew are looked at. -/
def edged (h : HeadId) (edge : EncoderEdge) (done : Converted) (s : State) : State :=
  let t := convertersDone (s.lead h) done s
  reloadGuard edge h (modSense h (Sense.edge edge (t.ramTop h)) t)

/-- The edge with the firing of its trigger. -/
def edgeFired (h : HeadId) (edge : EncoderEdge) (done : Converted) (s : State) : State :=
  let x := s.lead h
  let t := edged h edge done s
  if h = x then stepTrigger x (orderSpeed (t.head x).current (·.samplePitch)) (s.sense h).depth t else t

theorem edgeAccepted_eq (h : HeadId) (edge : EncoderEdge) (done : Converted) (s : State) :
    edgeAccepted h edge done s = skewCheck (s.lead h) (edgeFired h edge done s) := rfl

theorem convertersDone_control (x : HeadId) (done : Converted) (s : State) :
    (convertersDone x done s).control = s.control ∧ (convertersDone x done s).inputs = s.inputs := by
  unfold convertersDone
  dsimp only
  split <;> exact ⟨rfl, rfl⟩

theorem sense_edged (h : HeadId) (edge : EncoderEdge) (done : Converted) (s : State) (k : HeadId) :
    (edged h edge done s).sense k = if k = h then
      ((convertersDone (s.lead h) done s).sense h).edge edge (s.ramTop h)
      else (convertersDone (s.lead h) done s).sense k := by
  have top : (convertersDone (s.lead h) done s).ramTop h = s.ramTop h := by
    simp only [State.ramTop, (convertersDone_control (s.lead h) done s).2]
  unfold edged reloadGuard
  extract_lets t interval
  rw [top, sense_modHead, sense_modSense]
  split
  · next own => rw [own]
  · rfl

theorem accepted_iff (edge : EncoderEdge) : isAcceptedEdge edge = true ↔ edge ≠ .both := by cases edge <;> decide

theorem head_edged (h : HeadId) (edge : EncoderEdge) (done : Converted) (s : State) (k : HeadId) :
    (edged h edge done s).head k = if k = h then
      { s.head k with guardCount := if (s.head k).guardArmed ∧ edge ≠ .both then s.setup.guardInterval.get k
          else (s.head k).guardCount }
      else s.head k := by
  have heads : ∀ j, (convertersDone (s.lead h) done s).head j = s.head j := fun j =>
    congrArg (Four.get · j) (convertersDone_heads ..)
  have setup : (convertersDone (s.lead h) done s).setup = s.setup := by
    simp only [State.setup, (convertersDone_control (s.lead h) done s).1]
  unfold edged reloadGuard
  extract_lets t interval m
  have reload : interval = s.setup.guardInterval.get h := congrArg (·.guardInterval.get h) setup
  split
  · next own =>
    subst own
    rw [head_modHead_same, head_modSense, heads, reload]
    simp only [Bool.and_eq_true, accepted_iff]
    split <;> rfl
  · next other => rw [head_modHead_other other, head_modSense, heads]

theorem edged_press (h : HeadId) (edge : EncoderEdge) (done : Converted) (s : State) :
    PressTouched s (edged h edge done s) :=
  ((convertersDone_press ..).trans (modSense_press ..)).trans (modHead_press ..)

/-! ### A firing -/

theorem fireScan_press (kind : ScanKind) (x : HeadId) (s : State) : PressTouched s (fireScan kind x s) := by
  unfold fireScan
  extract_lets gang ownBusy compBusy own comp a b c
  have ha : PressTouched s a := by
    unfold a
    split
    · exact modSense_press ..
    · exact .rfl
  have hb : PressTouched a b := by
    unfold b
    split
    · exact modSense_press ..
    · exact .rfl
  have hc : PressTouched b c := by
    unfold c
    split
    · exact modSense_press ..
    · exact .rfl
  refine ((ha.trans hb).trans hc).trans ?_
  split
  · exact modSense_press ..
  · exact .rfl

theorem fireScan_heads (kind : ScanKind) (x : HeadId) (s : State) : (fireScan kind x s).heads = s.heads := by
  unfold fireScan
  extract_lets gang ownBusy compBusy own comp a b c
  have ha : a.heads = s.heads := by unfold a; split <;> rfl
  have hb : b.heads = a.heads := by unfold b; split <;> rfl
  have hc : c.heads = b.heads := by unfold c; split <;> rfl
  split
  · exact (hc.trans hb).trans ha
  · exact (hc.trans hb).trans ha

/-- A firing at a single head (R81, R82). -/
theorem fireScan_single (kind : ScanKind) {x : HeadId} {s : State} (single : (s.head x).gang = false) :
    (fireScan kind x s).sense x = if (s.sense x).scanning then (s.sense x).overrun else
      { s.sense x with
        scanning := true
        firings := (s.sense x).firings ++ [plainFiring kind (s.sense x).depth] } := by
  unfold fireScan
  rw [single]
  cases busy : (s.sense x).scanning
  · simp [plainFiring]
  · simp

/-- A firing of a gang's primary (R82, R126). -/
theorem fireScan_gang (kind : ScanKind) {x : HeadId} {s : State} (gang : (s.head x).gang = true)
    (primary : x ≠ x.companion) : firedBoth kind (s.sense x).depth x (s.sense x).scanning
      (s.sense x.companion).scanning s (fireScan kind x s) := by
  unfold fireScan
  rw [gang]
  cases busy : (s.sense x).scanning <;> cases busy' : (s.sense x.companion).scanning <;>
    simp [firedBoth, primary, primary.symm, busy, busy', Sense.overrun]

end Sys2Proof.Machine

/-! ## Depth and levels at an edge -/

namespace Sys2Proof.Machine

/-- Depths and accepted levels stand at every head. -/
def LinesKept (s t : State) : Prop := ∀ k, (t.sense k).depth = (s.sense k).depth ∧
  (t.sense k).levelA = (s.sense k).levelA ∧ (t.sense k).levelB = (s.sense k).levelB

theorem LinesKept.refl (s : State) : LinesKept s s := fun _ => ⟨rfl, rfl, rfl⟩

theorem LinesKept.trans {s t u : State} (a : LinesKept s t) (b : LinesKept t u) : LinesKept s u := fun k => by
  obtain ⟨depth, onA, onB⟩ := a k
  obtain ⟨depth', onA', onB'⟩ := b k
  exact ⟨depth'.trans depth, onA'.trans onA, onB'.trans onB⟩

theorem modSense_lines {f : Sense → Sense}
    (keeps : ∀ n, (f n).depth = n.depth ∧ (f n).levelA = n.levelA ∧ (f n).levelB = n.levelB) (h : HeadId) (s : State) :
    LinesKept s (modSense h f s) := fun k => by
  rw [sense_modSense]
  split
  · exact keeps _
  · exact ⟨rfl, rfl, rfl⟩

theorem fireScan_lines (kind : ScanKind) (x : HeadId) (s : State) : LinesKept s (fireScan kind x s) := by
  unfold fireScan
  extract_lets gang ownBusy compBusy own comp a b c
  have ha : LinesKept s a := by
    unfold a
    split
    · exact modSense_lines (by exact fun _ => ⟨rfl, rfl, rfl⟩) _ _
    · exact .refl _
  have hb : LinesKept a b := by
    unfold b
    split
    · exact modSense_lines (by exact fun _ => ⟨rfl, rfl, rfl⟩) _ _
    · exact .refl _
  have hc : LinesKept b c := by
    unfold c
    split
    · exact modSense_lines (by exact fun _ => ⟨rfl, rfl, rfl⟩) _ _
    · exact .refl _
  refine ((ha.trans hb).trans hc).trans ?_
  split
  · exact modSense_lines (by exact fun _ => ⟨rfl, rfl, rfl⟩) _ _
  · exact .refl _

theorem stepTrigger_lines (x : HeadId) (pitch : Nat) (before : Int) (s : State) :
    LinesKept s (stepTrigger x pitch before s) := by
  unfold stepTrigger
  dsimp only
  split
  · exact (fireScan_lines _ _ _).trans (modSense_lines (by exact fun _ => ⟨rfl, rfl, rfl⟩) _ _)
  · exact .refl _

theorem haltUnit_lines (why : Reason) (x : HeadId) (s : State) : LinesKept s (haltUnit why x s) := fun k => by
  by_cases mine : k ∈ s.unit x
  · obtain ⟨c, e⟩ := sense_haltUnit why x s mine
    rw [e]
    exact ⟨rfl, rfl, rfl⟩
  · obtain ⟨_, sense, _⟩ := (haltUnit_worked (P := fun _ => True) (List.Subset.refl (s.unit x)) why).frame.othersSame k mine
    rw [sense]
    exact ⟨rfl, rfl, rfl⟩

theorem skewCheck_lines (x : HeadId) (s : State) : LinesKept s (skewCheck x s) := by
  unfold skewCheck
  dsimp only
  split
  · exact haltUnit_lines _ _ _
  · exact .refl _

theorem stepTrigger_press (x : HeadId) (pitch : Nat) (before : Int) (s : State) :
    PressTouched s (stepTrigger x pitch before s) := by
  unfold stepTrigger
  dsimp only
  split
  · exact (fireScan_press ..).trans (modSense_press ..)
  · exact .rfl

theorem stepTrigger_heads (x : HeadId) (pitch : Nat) (before : Int) (s : State) :
    (stepTrigger x pitch before s).heads = s.heads := by
  unfold stepTrigger
  dsimp only
  split
  · exact fireScan_heads ..
  · rfl

theorem skewCheck_press (x : HeadId) (s : State) : PressTouched s (skewCheck x s) := by
  unfold skewCheck
  dsimp only
  split
  · exact haltUnit_press ..
  · exact .rfl

theorem edgeFired_press (h : HeadId) (edge : EncoderEdge) (done : Converted) (s : State) :
    PressTouched s (edgeFired h edge done s) := by
  unfold edgeFired
  extract_lets x t
  split
  · exact (edged_press ..).trans (stepTrigger_press ..)
  · exact edged_press ..

theorem edgeFired_lines (h : HeadId) (edge : EncoderEdge) (done : Converted) (s : State) :
    LinesKept (edged h edge done s) (edgeFired h edge done s) := by
  unfold edgeFired
  extract_lets x t
  split
  · exact stepTrigger_lines _ _ _ _
  · exact .refl _

theorem edgeFired_heads (h : HeadId) (edge : EncoderEdge) (done : Converted) (s : State) :
    (edgeFired h edge done s).heads = (edged h edge done s).heads := by
  unfold edgeFired
  extract_lets x t
  split
  · exact stepTrigger_heads ..
  · rfl

theorem edgeAccepted_press (h : HeadId) (edge : EncoderEdge) (done : Converted) (s : State) :
    PressTouched s (edgeAccepted h edge done s) :=
  (edgeFired_press ..).trans (skewCheck_press ..)

/-- The edge's own stage settles depth and levels. -/
theorem edged_lines (h : HeadId) (edge : EncoderEdge) (done : Converted) (s : State) :
    (((edged h edge done s).sense h).depth = depthAfter s h edge ∧
      ((edged h edge done s).sense h).levelA = ((s.sense h).levelA ^^ decide (edge ≠ .lineB)) ∧
      ((edged h edge done s).sense h).levelB = ((s.sense h).levelB ^^ decide (edge ≠ .lineA))) ∧
    ∀ k, k ≠ h → ((edged h edge done s).sense k).depth = (s.sense k).depth ∧
      ((edged h edge done s).sense k).levelA = (s.sense k).levelA ∧
      ((edged h edge done s).sense k).levelB = (s.sense k).levelB := by
  refine ⟨?_, fun k other => ?_⟩
  · rw [sense_edged, if_pos rfl, sense_convertersDone]
    obtain ⟨onA, onB⟩ := edge_levels edge (s.ramTop h) ((convertersDone (s.lead h) done s).sense h)
    rw [sense_convertersDone] at onA onB
    exact ⟨edge_depth .., onA, onB⟩
  · rw [sense_edged, if_neg other, sense_convertersDone]
    exact ⟨rfl, rfl, rfl⟩

/-- Settles O24. -/
theorem edgeMovesTheDepth : Obligations.EdgeMovesTheDepth := by
  refine ⟨filter_spec, fun s h edge done => .of_finish (u := edgeAccepted h edge done s) rfl fun t e => ?_⟩
  have lines := (edgeFired_lines h edge done s).trans (skewCheck_lines (s.lead h) _)
  rw [← edgeAccepted_eq] at lines
  obtain ⟨⟨depth, onA, onB⟩, others⟩ := edged_lines h edge done s
  obtain ⟨tools, board, reader, inputs⟩ := (edgeAccepted_press h edge done s).stands
  obtain ⟨depth', onA', onB'⟩ := lines h
  refine ⟨by rw [e.sense, depth', depth], by rw [e.sense, onA', onA], by rw [e.sense, onB', onB], fun k other => ?_,
    ⟨e.tools.trans tools.1, e.toolBus.trans tools.2⟩, e.claims.trans board.1, e.reader.trans reader, e.inputs.trans inputs⟩
  obtain ⟨depth, onA, onB⟩ := others k other
  obtain ⟨depth', onA', onB'⟩ := lines k
  rw [e.sense]
  exact ⟨depth'.trans depth, onA'.trans onA, onB'.trans onB⟩

end Sys2Proof.Machine

/-! ## Triggers and skew -/

namespace Sys2Proof.Machine

/-! ### The trigger (R80 to R82) -/

/-- What stands at a front-end when an edge has been taken in: the scans, the trigger and the counts of before. -/
def Sense.sameScans (m n : Sense) : Prop := n.firings = m.firings ∧ n.overruns = m.overruns ∧
  n.nextTrigger = m.nextTrigger ∧ n.triggerArmed = m.triggerArmed

theorem edged_scans (h : HeadId) (edge : EncoderEdge) (done : Converted) (s : State) (k : HeadId) :
    (s.sense k).sameScans ((edged h edge done s).sense k) ∧ ((edged h edge done s).sense k).scanning =
      ((s.sense k).scanning && !(decide (k = s.lead h) && done.own) &&
        !((s.head (s.lead h)).gang && decide (k = (s.lead h).companion) && done.companion)) := by
  have converted := sense_convertersDone (s.lead h) done s k
  rw [sense_edged]
  split
  · next own =>
    subst own
    obtain ⟨_, _, _, _, _, _, e⟩ := edge_eq edge (s.ramTop k) ((convertersDone (s.lead k) done s).sense k)
    rw [e, converted]
    exact ⟨⟨rfl, rfl, rfl, rfl⟩, rfl⟩
  · rw [converted]
    exact ⟨⟨rfl, rfl, rfl, rfl⟩, rfl⟩

theorem edged_reached (h : HeadId) (edge : EncoderEdge) (done : Converted) (s : State) :
    (((edged h edge done s).sense h).triggerArmed &&
      decide ((s.sense h).depth < ((edged h edge done s).sense h).depth) &&
      decide (((edged h edge done s).sense h).nextTrigger ≤ ((edged h edge done s).sense h).depth)) =
    triggerReached s h edge := by
  obtain ⟨⟨_, _, next, armed⟩, _⟩ := edged_scans h edge done s h
  rw [next, armed, (edged_lines h edge done s).1.1]
  rfl

/-- At the head that runs its unit the trigger fires when it is reached, and only then. -/
theorem edgeFired_own {h : HeadId} {s : State} (lead : s.lead h = h) (edge : EncoderEdge) (done : Converted) {o : Order}
    (order : (s.head h).current = some o) : edgeFired h edge done s =
      if triggerReached s h edge then modSense h (fun n => { n with nextTrigger := n.depth + o.samplePitch })
        (fireScan .step h (edged h edge done s)) else edged h edge done s := by
  have current : ((edged h edge done s).head h).current = some o := by
    rw [head_edged, if_pos rfl]
    exact order
  unfold edgeFired
  extract_lets x t
  rw [if_pos (show h = x from lead.symm), show x = h from lead]
  rw [stepTrigger, edged_reached, show t.head h = (edged h edge done s).head h from rfl, current]
  rfl

theorem edgeFired_other {h : HeadId} {s : State} (lead : h ≠ s.lead h) (edge : EncoderEdge) (done : Converted) :
    edgeFired h edge done s = edged h edge done s := if_neg lead

theorem head_edgeFired (h : HeadId) (edge : EncoderEdge) (done : Converted) (s : State) (k : HeadId) :
    (edgeFired h edge done s).head k = if k = h then
      { s.head k with guardCount := if (s.head k).guardArmed ∧ edge ≠ .both then s.setup.guardInterval.get k
          else (s.head k).guardCount }
      else s.head k := by
  rw [← head_edged h edge done]
  exact congrArg (Four.get · k) (edgeFired_heads ..)

theorem state_edgeFired (h : HeadId) (edge : EncoderEdge) (done : Converted) (s : State) (k : HeadId) :
    ((edgeFired h edge done s).head k).state = (s.head k).state ∧ ((edgeFired h edge done s).head k).gang = (s.head k).gang ∧
    ((edgeFired h edge done s).head k).atTop = (s.head k).atTop := by
  rw [head_edgeFired]
  split <;> exact ⟨rfl, rfl, rfl⟩

/-! ### The skew of a gang (R75) -/

theorem edgeFired_depth (h : HeadId) (edge : EncoderEdge) (done : Converted) (s : State) (k : HeadId) :
    ((edgeFired h edge done s).sense k).depth = gangDepth s h edge k := by
  obtain ⟨own, others⟩ := edged_lines h edge done s
  rw [(edgeFired_lines h edge done s k).1, gangDepth]
  split
  · next same => rw [same]; exact own.1
  · next other => exact (others k other).1

theorem edgeFired_setup (h : HeadId) (edge : EncoderEdge) (done : Converted) (s : State) :
    (edgeFired h edge done s).setup = s.setup := by
  have edged_setup : (edged h edge done s).setup = s.setup := by
    simp only [State.setup, show (edged h edge done s).control = (convertersDone (s.lead h) done s).control from rfl,
      (convertersDone_control (s.lead h) done s).1]
  rw [← edged_setup]
  unfold edgeFired
  extract_lets x t
  split
  · exact (stepTrigger_worked (P := fun _ => True) ..).frame.setup
  · rfl

theorem edgeFired_skewed (h : HeadId) (edge : EncoderEdge) (done : Converted) (s : State) (x : HeadId) :
    (edgeFired h edge done s).skewed x =
      decide (s.setup.gangSkew < (gangDepth s h edge x.primary - gangDepth s h edge x.companion).natAbs) := by
  rw [State.skewed, edgeFired_setup, edgeFired_depth, edgeFired_depth]

theorem skewCheck_of_single {x : HeadId} {s : State} (single : (s.head x).gang = false) : skewCheck x s = s := by
  simp [skewCheck, single]

theorem skewCheck_of_level {x : HeadId} {s : State} (level : s.skewed x = false) : skewCheck x s = s := by
  simp [skewCheck, level]

/-! ### Edges without a halt -/

theorem firedBoth.of_same {kind : ScanKind} {depth : Int} {h : HeadId} {own partner : Bool} {s s' t t' : State}
    (fired : firedBoth kind depth h own partner s' t') (before : (s.sense h).sameScans (s'.sense h))
    (scanning : (t.sense h).scanning = (t'.sense h).scanning)
    (partnerScanning : (t.sense h.companion).scanning = (t'.sense h.companion).scanning)
    (overruns : (t.sense h).overruns = (t'.sense h).overruns) (firings : (t.sense h).firings = (t'.sense h).firings) :
    firedBoth kind depth h own partner s t := by
  obtain ⟨hfirings, hoverruns, _⟩ := before
  unfold firedBoth at *
  rw [← hfirings, ← hoverruns, scanning, partnerScanning, overruns, firings]
  exact fired

/-- An edge at the companion fires nothing. -/
theorem edge_at_companion {s : State} {h : HeadId} (gang : (s.head h).gang = true) (own : h = h.companion)
    (edge : EncoderEdge) (done : Converted) :
    (s.sense h.primary).sameScans ((edgeFired h edge done s).sense h.primary) := by
  have lead : s.lead h = h.primary := if_pos gang
  have other : h ≠ s.lead h := by
    rw [lead]
    intro same
    exact h.companion_ne_primary (own.symm.trans same)
  rw [edgeFired_other other]
  exact (edged_scans h edge done s h.primary).1

/-- An edge at the primary fires on both converters (R82, R126). -/
theorem edge_at_primary {s : State} {h : HeadId} {o : Order} (gang : (s.head h).gang = true) (own : h = h.primary)
    (order : (s.head h).current = some o) (edge : EncoderEdge) (done : Converted) :
    if triggerReached s h edge then
      ((edgeFired h edge done s).sense h).nextTrigger = depthAfter s h edge + o.samplePitch ∧
      firedBoth .step (depthAfter s h edge) h ((s.sense h).scanning && !done.own)
        ((s.sense h.companion).scanning && !done.companion) s (edgeFired h edge done s)
    else (s.sense h).sameScans ((edgeFired h edge done s).sense h) := by
  have lead : s.lead h = h := (if_pos gang).trans own.symm
  have apart : h ≠ h.companion := fun same => h.companion_ne_primary (same.symm.trans own)
  obtain ⟨scans, scanning⟩ := edged_scans h edge done s h
  obtain ⟨_, scanning'⟩ := edged_scans h edge done s h.companion
  simp only [lead, gang, decide_true, decide_eq_false apart, decide_eq_false apart.symm, Bool.true_and, Bool.false_and,
    Bool.not_false, Bool.and_true, Bool.and_false] at scanning scanning'
  have depth := (edged_lines h edge done s).1.1
  have fires := fireScan_gang .step (x := h) (s := edged h edge done s)
    (by rw [head_edged, if_pos rfl]; exact gang) apart
  rw [depth, scanning, scanning'] at fires
  rw [edgeFired_own lead edge done order]
  split
  · refine ⟨?_, fires.of_same scans ?_ ?_ ?_ ?_⟩
    · rw [sense_modSense, if_pos rfl]
      show ((fireScan .step h (edged h edge done s)).sense h).depth + _ = _
      rw [(fireScan_lines .step h (edged h edge done s) h).1, depth]
    · rw [sense_modSense, if_pos rfl]
    · rw [sense_modSense, if_neg apart.symm]
    · rw [sense_modSense, if_pos rfl]
    · rw [sense_modSense, if_pos rfl]
  · exact scans

/-- An edge at a head by itself (R80 to R82). -/
theorem edge_at_single {s : State} {h : HeadId} {o : Order} (single : (s.head h).gang = false)
    (order : (s.head h).current = some o) (edge : EncoderEdge) (done : Converted) :
    if triggerReached s h edge then
      ((edgeFired h edge done s).sense h).nextTrigger = depthAfter s h edge + o.samplePitch ∧
      (if (s.sense h).scanning ∧ done.own = false then
        ((edgeFired h edge done s).sense h).firings = (s.sense h).firings ∧
        ((edgeFired h edge done s).sense h).overruns = min 65535 ((s.sense h).overruns + 1)
      else
        ((edgeFired h edge done s).sense h).firings = (s.sense h).firings ++
          [plainFiring .step (depthAfter s h edge)] ∧
        ((edgeFired h edge done s).sense h).overruns = (s.sense h).overruns ∧
        ((edgeFired h edge done s).sense h).scanning = true)
    else (s.sense h).sameScans ((edgeFired h edge done s).sense h) := by
  have lead : s.lead h = h := lead_single single
  obtain ⟨scans, scanning⟩ := edged_scans h edge done s h
  simp only [lead, single, decide_true, Bool.true_and, Bool.false_and, Bool.not_false, Bool.and_true] at scanning
  have depth := (edged_lines h edge done s).1.1
  have fires := fireScan_single .step (x := h) (s := edged h edge done s) (by rw [head_edged, if_pos rfl]; exact single)
  obtain ⟨firings, overruns, _, _⟩ := id scans
  rw [scanning, depth, firings] at fires
  rw [edgeFired_own lead edge done order]
  split
  · refine ⟨?_, ?_⟩
    · rw [sense_modSense, if_pos rfl]
      show ((fireScan .step h (edged h edge done s)).sense h).depth + _ = _
      rw [(fireScan_lines .step h (edged h edge done s) h).1, depth]
    · rw [sense_modSense, if_pos rfl, fires]
      have busy : ((s.sense h).scanning && !done.own) = true ↔ (s.sense h).scanning = true ∧ done.own = false := by
        rw [Bool.and_eq_true, Bool.not_eq_true']
      simp only [busy]
      split
      · exact ⟨firings, by rw [← overruns]; rfl⟩
      · exact ⟨rfl, overruns, rfl⟩
  · exact scans

/-- Settles O25. -/
theorem edgeReloadsGuardAndFiresTrigger : Obligations.EdgeReloadsGuardAndFiresTrigger := by
  refine ⟨fun s h edge done o gang primary order level => ?_, fun s h edge done o single order => ?_⟩
  · have lead : s.lead h = h.primary := if_pos gang
    have acts : edgeAccepted h edge done s = edgeFired h edge done s := by
      rw [edgeAccepted_eq, lead]
      refine skewCheck_of_level ?_
      rw [edgeFired_skewed, HeadId.primary_primary, HeadId.companion_primary]
      exact decide_eq_false level
    refine .of_finish (congrArg finish acts) fun t e => ⟨?_, fun k => ?_, fun own => ?_, fun own => ?_⟩
    · rw [e.head, head_edgeFired, if_pos rfl]
    · rw [e.head]
      exact (state_edgeFired h edge done s k).1
    · obtain ⟨firings, overruns, next, _⟩ := edge_at_companion gang own edge done
      rw [e.sense]
      exact ⟨firings, overruns, next⟩
    · have fires := edge_at_primary gang own ((congrArg (fun k => (s.head k).current) own).trans order) edge done
      rw [e.sense]
      split at fires
      · next reached =>
        rw [if_pos reached]
        exact ⟨fires.1, fires.2.of_same ⟨rfl, rfl, rfl, rfl⟩ (by rw [e.sense]) (by rw [e.sense]) (by rw [e.sense]) (by rw [e.sense])⟩
      · next short =>
        obtain ⟨firings, overruns, next, _⟩ := fires
        rw [if_neg short]
        exact ⟨next, firings, overruns⟩
  · have acts : edgeAccepted h edge done s = edgeFired h edge done s := by
      rw [edgeAccepted_eq, lead_single single]
      exact skewCheck_of_single ((state_edgeFired h edge done s h).2.1.trans single)
    refine .of_finish (congrArg finish acts) fun t e => ⟨?_, ?_, ?_, fun k other => ?_⟩
    · rw [e.head, head_edgeFired, if_pos rfl]
    · rw [e.head]
      exact (state_edgeFired h edge done s h).1
    · have fires := edge_at_single single order edge done
      rw [e.sense]
      split at fires
      · next reached =>
        rw [if_pos reached]
        exact fires
      · next short =>
        obtain ⟨firings, overruns, next, _⟩ := fires
        rw [if_neg short]
        exact ⟨next, firings, overruns⟩
    · rw [e.head, head_edgeFired, if_neg other]

end Sys2Proof.Machine

/-! ## Skew, stall, position lost -/

namespace Sys2Proof.Machine

theorem skewCheck_halts {x : HeadId} {s : State} (gang : (s.head x).gang = true) (stroke : (s.head x).state.inStroke = true)
    (away : ∀ k ∈ s.unit x, (s.head k).atTop = false) (skewed : s.skewed x = true) :
    skewCheck x s = haltUnit .skew x s := by
  have all : (s.unit x).all (fun h => !(s.head h).atTop) = true :=
    List.all_eq_true.mpr fun k mine => by rw [away k mine]; rfl
  simp only [skewCheck, gang, stroke, all, skewed, Bool.and_self, if_true]

theorem stalls_iff (st : HeadState) : st.stalls = true ↔
    st = .approach ∨ st = .seek ∨ st = .press ∨ st = .retract ∨ st = .recover := by cases st <;> decide

/-- A halt arms no guard. -/
theorem haltIn_disarmed {inStates : HeadState → Bool} {why : Reason} {x k : HeadId} {s : State}
    (disarmed : (s.head k).guardArmed = false) : ((haltIn inStates why x s).head k).guardArmed = false := by
  unfold haltIn
  split
  · by_cases mine : k ∈ s.unit x
    · exact ((haltedBy_haltUnit why x s).1 k mine).2.2.2.2.2.1
    · rw [(haltUnit_worked (P := fun _ => True) (List.Subset.refl (s.unit x)) why).frame.head mine]
      exact disarmed
  · exact disarmed

theorem losePosition_press (x : HeadId) (s : State) : PressTouched s (losePosition x s) := by
  unfold losePosition
  split
  · exact haltUnit_press ..
  · split
    · exact modHead_press ..
    · exact .rfl

/-- An edge that skews a gang halts it (R75). -/
theorem edge_skews {s : State} {h : HeadId} {edge : EncoderEdge} (done : Converted) (together : GangsAligned s)
    (gang : (s.head h).gang = true) (stroke : (s.head h).state.inStroke = true)
    (awayP : (s.head h.primary).atTop = false) (awayC : (s.head h.companion).atTop = false)
    (skewed : s.setup.gangSkew < (gangDepth s h edge h.primary - gangDepth s h edge h.companion).natAbs) :
    edgeAccepted h edge done s = haltUnit .skew h.primary (edgeFired h edge done s) ∧
      (edgeFired h edge done s).unit h.primary = [h.primary, h.companion] := by
  have lead : s.lead h = h.primary := if_pos gang
  have gangs : ((edgeFired h edge done s).head h.primary).gang = true :=
    (state_edgeFired h edge done s h.primary).2.1.trans (together h gang).1
  have unit : (edgeFired h edge done s).unit h.primary = [h.primary, h.companion] := by
    rw [State.unit, if_pos gangs, HeadId.primary_primary, HeadId.companion_primary]
  refine ⟨?_, unit⟩
  rw [edgeAccepted_eq, lead]
  refine skewCheck_halts gangs ?_ (fun k mine => ?_) ?_
  · rw [(state_edgeFired h edge done s h.primary).1, ← lead, state_lead together h]
    exact stroke
  · rw [(state_edgeFired h edge done s k).2.2]
    rw [unit, List.mem_cons, List.mem_singleton] at mine
    rcases mine with own | own <;> rw [own]
    · exact awayP
    · exact awayC
  · rw [edgeFired_skewed, HeadId.primary_primary, HeadId.companion_primary]
    exact decide_eq_true skewed

/-- Settles O26. -/
theorem haltCausesOfAStrokeHalt : Obligations.HaltCausesOfAStrokeHalt := by
  refine ⟨fun s h edge done together gang stroke awayP awayC skewed => ?_, fun s h armed zero => ?_, fun s h ready => ?_⟩
  · have depths : s.setup.gangSkew < (gangDepth s h edge h.primary - gangDepth s h edge h.companion).natAbs := by
      simp only [gangDepth, eq_comm (a := h.primary), eq_comm (a := h.companion)]
      exact skewed
    obtain ⟨acts, unit⟩ := edge_skews done together gang stroke awayP awayC depths
    have halted := haltedBy_haltUnit .skew h.primary (edgeFired h edge done s)
    rw [unit] at halted
    refine .of_finish (congrArg finish acts) fun t e => ⟨halted.of_ended e, ?_⟩
    rw [e.claims, ← acts]
    exact (edgeAccepted_press h edge done s).stands.2.1.1
  · let a := modHead h Head.disarm s
    have acts : exec (.strokeGuardExpire h) s = finish (haltIn HeadState.stalls .stall (s.lead h) a) :=
      congrArg finish (if_pos (by rw [armed, zero]; rfl))
    have kept : ∀ k, (a.head k).state = (s.head k).state ∧ (a.head k).gang = (s.head k).gang := fun k => by
      by_cases own : k = h
      · subst own
        rw [head_modHead_same]
        exact ⟨rfl, rfl⟩
      · rw [head_modHead_other own]
        exact ⟨rfl, rfl⟩
    have touched : PressTouched s (haltIn HeadState.stalls .stall (s.lead h) a) :=
      (modHead_press ..).trans (haltIn_press ..)
    obtain ⟨tools, board, reader, _⟩ := touched.stands
    refine .of_finish acts fun t e => ⟨?_, e.claims.trans board.1, ⟨e.tools.trans tools.1, e.toolBus.trans tools.2⟩,
      e.reader.trans reader, fun stalls => ?_⟩
    · rw [e.head]
      exact haltIn_disarmed (by rw [head_modHead_same]; rfl)
    · have halts : haltIn HeadState.stalls .stall (s.lead h) a = haltUnit .stall (s.lead h) a :=
        if_pos (by rw [(kept _).1]; exact (stalls_iff _).mpr stalls)
      rw [halts] at e
      have halted := haltedBy_haltUnit .stall (s.lead h) a
      rw [unit_congr (kept _).2] at halted
      exact halted.of_ended e
  · let a := setPosReady h false s
    have acts : exec (.posReadyFall h) s = finish (losePosition (s.lead h) a) := congrArg finish (if_pos ready)
    obtain ⟨tools, board, reader, inputs⟩ := (losePosition_press (s.lead h) a).stands
    have low : a.posReady h = false := by
      show ((s.inputs.posReady.set h (Line.settle false)).get h).level = false
      rw [Four.get_set_same]
      rfl
    refine .of_finish acts fun t e => ⟨?_, e.claims.trans board.1, ⟨e.tools.trans tools.1, e.toolBus.trans tools.2⟩,
      e.reader.trans reader, ?_⟩
    · rw [State.posReady, e.inputs, inputs]
      exact low
    · split
      · next stroke =>
        rw [show losePosition (s.lead h) a = haltUnit .positionLost (s.lead h) a from if_pos stroke] at e
        exact (haltedBy_haltUnit .positionLost (s.lead h) a).of_ended e
      · next out =>
        split
        · next started =>
          rw [show losePosition (s.lead h) a = modHead (s.lead h) (fun m => { m with posLost := true }) a from
            (if_neg out).trans (if_pos started)] at e
          refine ⟨by rw [e.head, head_modHead_same]; rfl, fun k other => by rw [e.head, head_modHead_other other]; rfl,
            e.senses, e.plans⟩
        · next idle =>
          rw [show losePosition (s.lead h) a = a from (if_neg out).trans (if_neg idle)] at e
          exact e.sameHeads

end Sys2Proof.Machine

/-! ## Timed scans and tares -/

namespace Sys2Proof.Machine

/-! ### A tick of the scan timer (R81 to R83) -/

theorem exec_timedScanTick {h : HeadId} {s : State} (due : s.taring h = true ∨ s.dwelling h = true) :
    exec (.timedScanTick h) s = finish (timedScan h (s.convertedByTick h) { s with choices := s.choices + 1 }) :=
  congrArg finish (if_pos (Bool.or_eq_true_iff.mpr due))

theorem timedScan_taring {h : HeadId} {s : State} (taring : s.taring h = true) (done : Converted) :
    timedScan h done s = tareScan h done.own s := if_pos taring

theorem timedScan_dwelling {h : HeadId} {s : State} (tare : s.taring h = false) (dwelling : s.dwelling h = true)
    (done : Converted) : timedScan h done s = fireScan .dwell h (convertersDone h done s) := by
  simp only [timedScan, tare, dwelling, if_true, Bool.false_eq_true, if_false]

theorem sense_tareScan (h : HeadId) (done : Bool) (s : State) (k : HeadId) : (tareScan h done s).sense k =
    if k = h ∧ ((s.sense h).scanning && !done) = false then
      { s.sense k with
        scanning := true
        firings := (s.sense k).firings ++ [plainFiring .tare (s.sense k).depth] }
    else s.sense k := by
  unfold tareScan
  split
  · next busy => rw [busy, if_neg (by simp)]
  · next free =>
    rw [sense_modSense]
    by_cases own : k = h
    · rw [if_pos own, if_pos ⟨own, Bool.eq_false_iff.mpr free⟩]
      rfl
    · rw [if_neg own, if_neg (fun both => own both.1)]

theorem tareScan_heads (h : HeadId) (done : Bool) (s : State) : (tareScan h done s).heads = s.heads := by
  unfold tareScan
  split <;> rfl

theorem dwelling_leads {s : State} {h : HeadId} (dwelling : s.dwelling h = true) : s.lead h = h := by
  simp only [State.dwelling, Bool.and_eq_true] at dwelling
  exact of_decide_eq_true dwelling.1.1

/-- Settles O27. -/
theorem timedTicksStartScans : Obligations.TimedTicksStartScans := by
  rintro s h done rfl
  generalize same : s.convertedByTick h = done
  let a : State := { s with choices := s.choices + 1 }
  have heads : (fireScan .dwell h (convertersDone h done a)).heads = s.heads :=
    (fireScan_heads ..).trans (convertersDone_heads ..)
  have scanned := sense_convertersDone h done a
  refine ⟨fun taring => ?_, fun tare dwelling single => ?_, fun tare dwelling gang => ?_⟩
  · have run := exec_timedScanTick (.inl taring)
    rw [same, timedScan_taring (s := a) taring] at run
    have sense := sense_tareScan h done.own a
    refine .of_finish run fun t e => ⟨e.heads.trans (tareScan_heads ..), ?_, ?_, ?_, fun k other => ?_⟩
    · rw [e.sense, sense]
      split <;> rfl
    · rw [e.sense, sense]
      split
      · rfl
      · next busy =>
        have scanning : ((s.sense h).scanning && !done.own) = true :=
          (Bool.not_eq_false _).mp fun free => busy ⟨rfl, free⟩
        exact (Bool.and_eq_true_iff.mp scanning).1
    · rw [e.sense, sense]
      cases busy : (s.sense h).scanning && !done.own
      · rw [if_pos ⟨rfl, busy⟩]
        rfl
      · rw [if_neg (fun free => by cases busy.symm.trans free.2)]
        rfl
    · rw [e.sense, sense, if_neg (fun both => other both.1)]
      rfl
  · have run := exec_timedScanTick (.inr dwelling)
    rw [same, timedScan_dwelling (s := a) tare dwelling] at run
    have fires := fireScan_single .dwell (x := h) (s := convertersDone h done a)
      (by rw [State.head, convertersDone_heads]; exact single)
    rw [scanned h, show (a.head h).gang = false from single] at fires
    simp only [decide_true, Bool.true_and, Bool.false_and, Bool.not_false, Bool.and_true] at fires
    refine .of_finish run fun t e => ⟨e.heads.trans heads, ?_⟩
    rw [e.sense, fires, show a.sense h = s.sense h from rfl]
    cases busy : (s.sense h).scanning && !done.own
    · exact ⟨rfl, rfl, rfl⟩
    · exact ⟨rfl, rfl, rfl⟩
  · have run := exec_timedScanTick (.inr dwelling)
    rw [same, timedScan_dwelling (s := a) tare dwelling] at run
    have apart : h ≠ h.companion := fun own => by
      have primary : h.primary = h := (if_pos gang).symm.trans (dwelling_leads dwelling)
      exact h.companion_ne_primary (own.symm.trans primary.symm)
    have fires := fireScan_gang .dwell (x := h) (s := convertersDone h done a)
      (by rw [State.head, convertersDone_heads]; exact gang) apart
    have sense : ((convertersDone h done a).sense h).depth = (s.sense h).depth ∧
        ((convertersDone h done a).sense h).scanning = ((s.sense h).scanning && !done.own) ∧
        ((convertersDone h done a).sense h.companion).scanning = ((s.sense h.companion).scanning && !done.companion) := by
      rw [scanned h, scanned h.companion, show (a.head h).gang = true from gang]
      simp only [decide_true, decide_eq_false apart, decide_eq_false apart.symm, Bool.true_and, Bool.false_and,
        Bool.not_false, Bool.and_true, Bool.and_false]
      exact ⟨rfl, rfl, rfl⟩
    obtain ⟨depth, own, partner⟩ := sense
    rw [depth, own, partner] at fires
    refine .of_finish run fun t e => ⟨e.heads.trans heads, fires.of_same ?_ (by rw [e.sense]) (by rw [e.sense])
      (by rw [e.sense]) (by rw [e.sense])⟩
    rw [scanned h]
    exact ⟨rfl, rfl, rfl, rfl⟩

end Sys2Proof.Machine

/-! ## Tares -/

namespace Sys2Proof.Machine

/-! ### A tare's scan (R112) -/

theorem sense_endFiring (x : HeadId) (f : Firing) (rest : List Firing) (s : State) :
    ∃ scanning, (endFiring x f rest s).sense x = { s.sense x with firings := rest, scanning := scanning } := by
  unfold endFiring
  dsimp only
  split
  · rw [sense_modSense, sense_modSense, if_pos rfl]
    split
    · exact ⟨_, rfl⟩
    · exact ⟨_, rfl⟩
  · rw [sense_modSense, if_pos rfl]
    exact ⟨_, rfl⟩

theorem endFiring_plans (x : HeadId) (f : Firing) (rest : List Firing) (s : State) :
    (endFiring x f rest s).plans = s.plans := by
  unfold endFiring
  dsimp only
  split <;> rfl

theorem scanFinished_tare {x : HeadId} {s : State} {f : Firing} {rest : List Firing} (front : (s.sense x).firings = f :: rest)
    (kind : f.kind = .tare) (kept : f.discard = false) (own companion : List Raw) (race : SampleRace) :
    scanFinished x own companion race s =
      modSense x (fun n => { n with tare := n.tare.map (Tare.addScan own) }) (endFiring x f rest s) := by
  simp only [scanFinished, front, kept, kind, Bool.false_eq_true, if_false]

/-! ### A tare judged (R88, R112) -/

/-- A channel and a sum of its own: what the judgement makes of the channel stands at its place. -/
theorem settleTares_at (limit scans : Nat) : ∀ (sums : List Int) (chs : List Channel) (i : Nat) (ch : Channel),
    chs[i]? = some ch →
    (sums[i]? = none → (settleTares limit scans sums chs).1[i]? = some ch) ∧
    ∀ sum, sums[i]? = some sum → (settleTares limit scans sums chs).1[i]? = some (ch.settleTare limit scans sum).1 ∧
      ((ch.settleTare limit scans sum).2 = true → (settleTares limit scans sums chs).2 = true)
  | [], chs, i, ch, found => ⟨fun _ => by cases chs <;> exact found, fun _ sum => nomatch sum⟩
  | _ :: _, [], _, _, found => nomatch found
  | a :: as, c :: cs, 0, ch, found => by
    cases found
    refine ⟨nofun, fun sum here => ?_⟩
    cases here
    exact ⟨rfl, fun warn => by rw [settleTares, warn]; rfl⟩
  | a :: as, c :: cs, i + 1, ch, found => by
    obtain ⟨none, some⟩ := settleTares_at limit scans as cs i ch found
    refine ⟨none, fun sum here => ?_⟩
    obtain ⟨now, warn⟩ := some sum here
    exact ⟨now, fun due => by rw [settleTares, warn due, Bool.or_true]⟩

/-- A channel whose mean lies beyond the offset limit. -/
theorem failTare_spec (ch : Channel) : ch.failTare.1.glitches = ch.glitches ∧ ch.failTare.1.offset = ch.offset ∧
    ch.failTare.1.health = (if ch.health = .faulted .glitch then .faulted .glitch else .faulted .tare) ∧
    (ch.health = .ok ∨ ch.health = .suspect → ch.failTare.2 = true) := by
  unfold Channel.failTare
  rcases health : ch.health with _ | _ | cause
  · exact ⟨rfl, rfl, rfl, fun _ => rfl⟩
  · exact ⟨rfl, rfl, rfl, fun _ => rfl⟩
  · cases cause <;> simp [health]

/-- A channel whose mean lies within the offset limit. -/
theorem passTare_spec (mean : Int) (ch : Channel) : (ch.passTare mean).1.glitches = ch.glitches ∧
    (ch.passTare mean).1.offset = mean ∧
    (ch.passTare mean).1.health = (if ch.health = .faulted .tare ∨ ch.health = .faulted .reversed then
      (if ch.glitches < 128 then .ok else .suspect) else ch.health) ∧
    ((ch.health = .faulted .tare ∨ ch.health = .faulted .reversed) → 128 ≤ ch.glitches → (ch.passTare mean).2 = true) := by
  unfold Channel.passTare
  rcases health : ch.health with _ | _ | cause
  · simp
  · simp
  · by_cases few : ch.glitches < 128
    · cases cause <;> simp [few, Nat.not_le.mpr few]
    · cases cause <;> simp [few]

/-- What settling a tare leaves of its head's front-end. -/
theorem sense_settleTare (h : HeadId) (w : Tare) (s : State) : (settleTare h w s).sense h =
    { s.sense h with
      channels := (settleTares s.setup.tareOffsetLimit (tareScans s.setup) w.sums (s.sense h).channels).1
      tareValid := true
      strokesSinceTare := 0
      tare := none } := by
  unfold settleTare
  dsimp only
  split
  · rw [sense_raise, sense_modSense_same]
  · rw [sense_modSense_same]

theorem settleTare_flagged {h : HeadId} {w : Tare} {s : State}
    (warn : (settleTares s.setup.tareOffsetLimit (tareScans s.setup) w.sums (s.sense h).channels).2 = true) :
    flagged .chwarn (settleTare h w s) := by
  unfold settleTare
  dsimp only
  rw [if_pos warn]
  exact flagged_raise ..

theorem settleTare_press (h : HeadId) (w : Tare) (s : State) : PressTouched s (settleTare h w s) := by
  unfold settleTare
  dsimp only
  split
  · exact (modSense_press ..).trans (raise_touches ..).press
  · exact modSense_press ..

theorem startPlan_press (x : HeadId) (s : State) : PressTouched s (startPlan x s) := by
  unfold startPlan
  split
  · exact .rfl
  · exact ((modHead_press ..).trans (setPlan_press ..)).trans (requestRead_touches ..).press

theorem taresDone_press (x : HeadId) (s : State) : PressTouched s (taresDone x s) := by
  unfold taresDone
  split
  · exact startPlan_press ..
  · exact .rfl

theorem taresDone_senses (x : HeadId) (s : State) : (taresDone x s).senses = s.senses := by
  unfold taresDone
  split
  · unfold startPlan
    split <;> rfl
  · rfl

/-- What becomes of a channel whose tare is settled, with the flag it raises. -/
theorem settled_channel {limit : Nat} {exponent : Nat} {sum : Int} {ch : Channel} {flag : Prop}
    (warned : (ch.settleTare limit (2 ^ exponent) sum).2 = true → flag) :
    (ch.settleTare limit (2 ^ exponent) sum).1.glitches = ch.glitches ∧
    (if limit < (sum.tdiv (2 ^ exponent)).natAbs then
      (ch.settleTare limit (2 ^ exponent) sum).1.offset = ch.offset ∧
      (ch.settleTare limit (2 ^ exponent) sum).1.health =
        (if ch.health = .faulted .glitch then .faulted .glitch else .faulted .tare) ∧
      (ch.health = .ok ∨ ch.health = .suspect → flag)
    else
      (ch.settleTare limit (2 ^ exponent) sum).1.offset = sum.tdiv (2 ^ exponent) ∧
      (ch.settleTare limit (2 ^ exponent) sum).1.health =
        (if ch.health = .faulted .tare ∨ ch.health = .faulted .reversed then
          (if ch.glitches < 128 then .ok else .suspect) else ch.health) ∧
      ((ch.health = .faulted .tare ∨ ch.health = .faulted .reversed) → 128 ≤ ch.glitches → flag)) := by
  have mean : sum.tdiv ((2 ^ exponent : Nat) : Int) = sum.tdiv (2 ^ exponent) := by rw [Nat.cast_pow]; rfl
  have judged : ch.settleTare limit (2 ^ exponent) sum = if limit < (sum.tdiv (2 ^ exponent)).natAbs then ch.failTare
      else ch.passTare (sum.tdiv (2 ^ exponent)) := by
    rw [Channel.settleTare, mean]
  by_cases beyond : limit < (sum.tdiv (2 ^ exponent)).natAbs
  · rw [if_pos beyond] at judged ⊢
    rw [judged] at warned ⊢
    obtain ⟨glitches, offset, health, warn⟩ := failTare_spec ch
    exact ⟨glitches, offset, health, fun entered => warned (warn entered)⟩
  · rw [if_neg beyond] at judged ⊢
    rw [judged] at warned ⊢
    obtain ⟨glitches, offset, health, warn⟩ := passTare_spec (sum.tdiv (2 ^ exponent)) ch
    exact ⟨glitches, offset, health, fun cleared many => warned (warn cleared many)⟩

/-- Settles O28. -/
theorem tareScansAreSummedAndJudged : Obligations.TareScansAreSummedAndJudged := by
  refine ⟨fun s h own companion race f rest w front kind kept taring => ?_, fun s h w taring last => ?_⟩
  · have acts := scanFinished_tare front kind kept own companion race
    obtain ⟨scanning, ended⟩ := sense_endFiring h f rest s
    have sense : ((scanFinished h own companion race s).sense h) =
        { s.sense h with firings := rest, scanning := scanning, tare := some (w.addScan own) } := by
      rw [acts, sense_modSense_same, ended, taring]
      rfl
    refine .of_finish (u := scanFinished h own companion race s) rfl fun t e => ?_
    rw [e.sense, sense]
    refine ⟨rfl, rfl, rfl, rfl, ?_, ?_⟩
    · rw [e.heads, acts]
      exact head_endFiring ..
    · rw [e.plans, acts]
      exact endFiring_plans ..
  · let settled := settleTare h w s
    have acts : exec (.tareComplete h) s = finish (taresDone (s.lead h) settled) := by
      show finish _ = _
      simp only [taring, if_pos last]
      rfl
    have sense : (taresDone (s.lead h) settled).sense h = _ :=
      (congrArg (Four.get · h) (taresDone_senses (s.lead h) settled)).trans (sense_settleTare h w s)
    obtain ⟨tools, board, reader, _⟩ := ((settleTare_press h w s).trans (taresDone_press (s.lead h) settled)).stands
    have flag : (settleTares s.setup.tareOffsetLimit (tareScans s.setup) w.sums (s.sense h).channels).2 = true →
        flagged .chwarn (taresDone (s.lead h) settled) := fun warn =>
      (taresDone_worked (P := fun _ => True) (us := HeadId.all) (HeadId.mem_all _) settled).frame.flagged (settleTare_flagged warn)
    refine .of_finish acts fun t e => ?_
    rw [e.sense, sense]
    refine ⟨rfl, rfl, rfl, rfl, fun i ch found => ?_, ⟨e.tools.trans tools.1, e.toolBus.trans tools.2⟩, e.claims.trans board.1,
      e.reader.trans reader⟩
    obtain ⟨none, some⟩ := settleTares_at s.setup.tareOffsetLimit (tareScans s.setup) w.sums (s.sense h).channels i ch found
    refine ⟨none, fun sum here => ?_⟩
    obtain ⟨after, warn⟩ := some sum here
    exact ⟨_, after, settled_channel fun due => e.flagged (flag (warn due))⟩

end Sys2Proof.Machine

/-! ## The results of a stroke -/

namespace Sys2Proof.Machine

/-- The writing that a stroke's results begin with (R66, R161). -/
theorem beginClosing_stroke {c : Closing} (stroke : c.stroke = true) (x : HeadId) (s : State) :
    ∃ stage, (beginClosing x c s).head x =
        { s.head x with outcomeFixed := true, closing := some { c with stage := stage } } ∧
      ((s.head x).trace.inFlight ≠ 0 → stage = .traceFlight) ∧
      ((s.head x).trace.inFlight = 0 → ∀ e more, c.result.entries = e :: more → stage = .entry 0 ∧
        writes (.outcomeWrite x) (c.order.resultArea + 16 * e.index) e.bytes (beginClosing x c s)) := by
  obtain ⟨stage, head⟩ := head_beginClosing x c s x
  rw [if_pos rfl] at head
  refine ⟨stage, head, fun flying => ?_, fun landed e more entries => ?_⟩
  · have waits : beginClosing x c s = setClosing x { c with stage := .traceFlight }
        (modHead x (fun m => { m with outcomeFixed := true }) s) := by
      simp only [beginClosing, stroke, head_modHead_same, flying, Bool.not_true, Bool.false_eq_true, if_false]
    rw [waits, setClosing_head, head_modHead_same] at head
    have same := congrArg Head.closing head
    exact congrArg Closing.stage (Option.some.inj same.symm)
  · have writing : beginClosing x c s = putEntry 0 x c (modHead x (fun m => { m with outcomeFixed := true }) s) := by
      simp only [beginClosing, stroke, head_modHead_same, landed, Bool.not_true, Bool.false_eq_true, if_false, if_true]
    have sent := putEntry_sent (i := 0) (c := c) (by rw [entries]; rfl) x
      (modHead x (fun m => { m with outcomeFixed := true }) s)
    rw [← writing] at sent
    have same := sent.closing.symm.trans (congrArg Head.closing head)
    exact ⟨(congrArg Closing.stage (Option.some.inj same)).symm, sent.asked⟩

/-- What a stroke's results are written with. -/
def resultsClosing (o : Order) (m : Head) : Closing :=
  { order := o
    result := m.handed.getD (HandOver.bare .aborted .none)
    contactDepth := m.contactDepth.getD 0
    seatDepth := m.pressEnd.getD 0
    stroke := true
    stage := .entry 0 }

theorem beginResults_of {x : HeadId} {s : State} {o : Order} (order : (s.head x).current = some o) :
    beginResults x s = beginClosing x (resultsClosing o (s.head x)) s := by
  simp only [beginResults, order]
  rfl

/-- Settles O32. -/
theorem dwellExpiryBeginsTheResults : Obligations.DwellExpiryBeginsTheResults := by
  intro s h o r state dwell order handed
  let a := modHead h (fun m => { m with dwell := none }) s
  have head : a.head h = { s.head h with dwell := none } := head_modHead_same h (fun m => { m with dwell := none }) s
  have order' : (a.head h).current = some o := by rw [head]; exact order
  have acts : exec (.dwellExpire h) s = finish (beginClosing h (resultsClosing o (a.head h)) a) := by
    rw [← beginResults_of order']
    exact congrArg finish (if_pos (by rw [state, dwell]; rfl))
  obtain ⟨stage, now, flying, landed⟩ := beginClosing_stroke (c := resultsClosing o (a.head h)) rfl h a
  have frame := ((modHead_worked (P := fun _ => True) (f := fun m => { m with dwell := none }) (s := s)
    (List.mem_singleton.mpr rfl : h ∈ [h]) ⟨rfl, rfl, .inl⟩).trans
    (beginClosing_worked (List.mem_singleton.mpr rfl) (resultsClosing o (a.head h)) a)).frame
  rw [show (a.head h).trace = (s.head h).trace by rw [head]] at flying landed
  refine .of_finish acts fun t e => ?_
  rw [e.head, now]
  refine ⟨by rw [head]; exact state, rfl, by rw [head], ⟨_, rfl, rfl, ?_, rfl, flying, fun zero entry more entries => ?_⟩,
    frame.othersSame.of_ended e, e.claims.trans frame.claims⟩
  · rw [resultsClosing, head, handed]
    rfl
  · obtain ⟨at_, asked⟩ := landed zero entry more (by rw [resultsClosing, head, handed]; exact entries)
    exact ⟨at_, e.writes (fun _ => nofun) nofun asked⟩

end Sys2Proof.Machine

/-! ## The sample -/

namespace Sys2Proof.Machine

/-! ### Its sum (R90) -/

theorem foldl_present (vs : List (Option Int)) (start : Int) :
    vs.foldl (fun a v => a + v.getD 0) start = start + (vs.filterMap id).sum := by
  induction vs generalizing start with
  | nil => simp
  | cons v vs ih =>
    rw [List.foldl_cons, ih]
    cases v with
    | none => simp
    | some f => simp [Int.add_assoc]

theorem sumPresent_eq (vs : List (Option Int)) : sumPresent vs = (vs.filterMap id).sum := by
  rw [sumPresent, foldl_present, Int.zero_add]

/-! ### The converters' readings processed (R81, R91, R126) -/

/-- What the companion's part of a firing comes to: nothing where the head is not half of a gang. -/
def partnerScanned (f : Firing) (reverse : Bool) (s : State) (x : HeadId) (raws : List Raw) : Scanned :=
  if (s.head x).gang then scannedOr f.companion reverse s x.companion raws
  else { channels := (s.sense x.companion).channels, values := [], warn := false }

/-- The sum force of a sample. -/
def scannedSum (r q : Scanned) : Int := sumPresent r.values + sumPresent q.values

theorem scanTines_none (c : Setup) (reverse : Bool) (gains : List Nat) (raws : List Raw) (chs : List Channel) :
    scanTines c reverse 0 gains raws chs = { channels := chs, values := [], warn := false } := by
  cases chs <;> rfl

/-- How a head and its partner stand apart where they work as a gang. -/
def State.apart (s : State) (x : HeadId) : Prop := (s.head x).gang = true → x ≠ x.companion

section
variable {x : HeadId} {f : Firing} {ownRaw partnerRaw : List Raw} {reverse : Bool} {s : State}

/-- The sample of a firing, and the front-ends after it. -/
theorem makeSample_spec (apart : s.apart x) :
    let r := scannedOr f.own reverse s x ownRaw
    let q := partnerScanned f reverse s x partnerRaw
    let u := (makeSample x f ownRaw partnerRaw reverse s).2
    (makeSample x f ownRaw partnerRaw reverse s).1 =
      { depth := f.depth
        own := r.values
        companion := q.values
        ownHealth := (r.channels.take (s.tool x).tines).map (·.health)
        companionHealth :=
          if (s.head x).gang then (q.channels.take (s.tool x.companion).tines).map (·.health) else []
        sum := scannedSum r q
        timed := f.kind.timed } ∧
    u.sense x = { s.sense x with
      channels := r.channels, peak := max (s.sense x).peak (scannedSum r q), latest := scannedSum r q } ∧
    ((s.head x).gang = true → u.sense x.companion = { s.sense x.companion with channels := q.channels }) ∧
    (r.warn = true ∨ (s.head x).gang = true ∧ q.warn = true → flagged .chwarn u) := by
  intro r q u
  have final : u = (makeSample x f ownRaw partnerRaw reverse s).2 := rfl
  revert final
  unfold makeSample
  extract_lets c t0 own a b y gang t1 comp d e sum smp
  intro final
  have gangs : gang = (s.head x).gang := by
    show (b.head x).gang = _
    unfold b
    split <;> rfl
  have tool : ∀ k, b.tool k = s.tool k := fun k => by unfold b; split <;> rfl
  have ownSense : b.sense x = { s.sense x with channels := r.channels } := by
    have here : a.sense x = { s.sense x with channels := r.channels } := sense_modSense_same ..
    unfold b
    split <;> exact here
  have comps : comp.values = q.values ∧
      ((s.head x).gang = true → comp = q ∧ t1 = (s.tool x.companion).tines ∧ b.sense y = s.sense x.companion) := by
    cases single : (s.head x).gang
    · have none : comp.values = [] := by
        unfold comp t1
        rw [gangs, single]
        split
        · rw [if_neg Bool.false_ne_true, scanTines_none]
        · rfl
      refine ⟨none.trans ?_, nofun⟩
      unfold q partnerScanned
      rw [single]
      rfl
    · have sense : b.sense y = s.sense x.companion := by
        have here : a.sense y = s.sense y := sense_modSense_other (apart single).symm _ _
        unfold b
        split <;> exact here
      have tines : t1 = (s.tool x.companion).tines := by
        unfold t1
        rw [gangs, single, if_pos rfl, tool]
      have same : comp = q := by
        unfold comp q partnerScanned
        rw [single, if_pos rfl, tines, sense, tool]
        rfl
      exact ⟨congrArg Scanned.values same, fun _ => ⟨same, tines, sense⟩⟩
  have sums : sum = scannedSum r q := by
    unfold sum scannedSum
    rw [comps.1]
    rfl
  have raised : ∀ (b : Bool) (t : State) k, (if b = true then raise .chwarn t else t).sense k = t.sense k := fun b t k => by
    split <;> rfl
  have eOwn : e.sense x = b.sense x := by
    rw [show e.sense x = d.sense x from raised ..]
    unfold d
    split
    · next half => exact sense_modSense_other (apart (gangs.symm.trans half)) _ _
    · rfl
  refine ⟨?_, ?_, fun half => ?_, fun warned => ?_⟩
  · simp only [smp, sums, gangs, comps.1]
    cases single : (s.head x).gang
    · rfl
    · obtain ⟨same, tines, _⟩ := comps.2 single
      simp only [same, tines, if_true]
      rfl
  · rw [final, sense_modSense_same, eOwn, ownSense, sums]
  · obtain ⟨same, _, sense⟩ := comps.2 half
    rw [final, sense_modSense_other (apart half).symm, show e.sense x.companion = d.sense x.companion from raised ..]
    unfold d
    rw [if_pos (gangs.trans half), sense_modSense_same, sense, same]
  · have keeps : flagged .chwarn e → flagged .chwarn u := fun set => by rw [final]; exact set
    have later : flagged .chwarn d → flagged .chwarn e := fun set => by
      unfold e
      split
      · exact flagged_raise_of .chwarn .chwarn set
      · exact set
    rcases warned with first | ⟨half, second⟩
    · have set : flagged .chwarn b := by
        unfold b
        rw [if_pos (show own.warn = true from first)]
        exact flagged_raise ..
      refine keeps (later ?_)
      unfold d
      split <;> exact set
    · obtain ⟨same, _⟩ := comps.2 half
      refine keeps ?_
      unfold e
      rw [if_pos (by rw [same]; exact second)]
      exact flagged_raise ..

end

/-! ### One reading (R84 to R88) -/

/-- A reading that is no present force: at a limit of the converter, or further than the slew limit from the last. -/
def badReading (c : Setup) (force : Int) (raw : Raw) (ch : Channel) : Prop :=
  raw.toInt = -32768 ∨ raw.toInt = 32767 ∨ ∃ ref, ch.slewRef = some ref ∧ c.slewLimit < (force - ref).natAbs

theorem bad_iff (c : Setup) (force : Int) (raw : Raw) (ch : Channel) :
    (atConverterLimit raw || beyondSlew c.slewLimit ch.slewRef force) = true ↔ badReading c force raw ch := by
  unfold badReading atConverterLimit beyondSlew
  cases ch.slewRef with
  | none => simp
  | some r => simp [or_assoc]

theorem glitch_spec (limit : Nat) (ch : Channel) : ch.glitch limit =
    ({ ch with
        glitches := min 255 (ch.glitches + 1)
        health := if limit ≤ min 255 (ch.glitches + 1) then .faulted .glitch
          else if 128 ≤ min 255 (ch.glitches + 1) ∧ ch.health = .ok then .suspect else ch.health },
      decide (limit ≤ min 255 (ch.glitches + 1) ∨ 128 ≤ min 255 (ch.glitches + 1) ∧ ch.health = .ok)) := by
  unfold Channel.glitch
  extract_lets n
  by_cases many : limit ≤ n
  · rw [if_pos many, if_pos many, decide_eq_true (.inl many)]
  · by_cases first : 128 ≤ n ∧ ch.health = .ok
    · rw [if_neg many, if_pos first, if_neg many, if_pos first, decide_eq_true (.inr first)]
    · rw [if_neg many, if_neg first, if_neg many, if_neg first, decide_eq_false (fun either => either.elim many first)]

theorem read_spec (c : Setup) (reverse : Bool) (gain : Nat) (raw : Raw) (ch : Channel) :
    let force := ((raw.toInt - ch.offset) * gain).tdiv 16384
    let count := min 255 (ch.glitches + 1)
    (∀ cause, ch.health = .faulted cause → ch.read c reverse gain raw = (ch, none, false)) ∧
    (ch.health = .ok ∨ ch.health = .suspect →
      (badReading c force raw ch → ch.read c reverse gain raw =
        ({ ch with
            glitches := count
            health := if c.glitchLimit ≤ count then .faulted .glitch
              else if 128 ≤ count ∧ ch.health = .ok then .suspect else ch.health },
          none, decide (c.glitchLimit ≤ count ∨ 128 ≤ count ∧ ch.health = .ok))) ∧
      (¬badReading c force raw ch → reverse = true → force < -(c.reverseThreshold : Int) →
        ch.read c reverse gain raw = ({ ch with health := .faulted .reversed }, none, true)) ∧
      (¬badReading c force raw ch → ¬(reverse = true ∧ force < -(c.reverseThreshold : Int)) →
        ch.read c reverse gain raw = ({ ch with slewRef := some force }, some force, false))) := by
  intro force count
  have live : ch.health = .ok ∨ ch.health = .suspect → ch.read c reverse gain raw =
      if atConverterLimit raw || beyondSlew c.slewLimit ch.slewRef force then
        ((ch.glitch c.glitchLimit).1, none, (ch.glitch c.glitchLimit).2)
      else if reverse && decide (force < -(c.reverseThreshold : Int)) then
        ({ ch with health := .faulted .reversed }, none, true)
      else ({ ch with slewRef := some force }, some force, false) := by
    rintro (health | health) <;> simp only [Channel.read, health] <;> rfl
  refine ⟨fun cause health => by simp only [Channel.read, health], fun working => ⟨fun bad => ?_, fun good on low => ?_,
    fun good above => ?_⟩⟩
  · rw [live working, if_pos ((bad_iff ..).mpr bad), glitch_spec]
  · rw [live working, if_neg (mt (bad_iff ..).mp good), if_pos (by rw [on, decide_eq_true low]; rfl)]
  · rw [live working, if_neg (mt (bad_iff ..).mp good), if_neg (by
      rw [Bool.and_eq_true, decide_eq_true_eq]
      exact above)]

/-- Each of the tool's tines is read into its own channel (R81, R91). -/
theorem scanTines_spec (c : Setup) (reverse : Bool) : ∀ (n : Nat) (gains : List Nat) (raws : List Raw) (chs : List Channel),
    n ≤ chs.length → ∀ i ch, chs[i]? = some ch →
      let r := scanTines c reverse n gains raws chs
      let one := ch.read c reverse (gains.getD i 0) (raws.getD i 0)
      (i < n → r.channels[i]? = some one.1 ∧ r.values[i]? = some one.2.1 ∧ (one.2.2 = true → r.warn = true)) ∧
      (n ≤ i → r.channels[i]? = some ch) ∧ r.values.length = n
  | 0, gains, raws, chs, _, i, ch, found => by
    rw [scanTines_none]
    exact ⟨fun below => absurd below (Nat.not_lt_zero i), fun _ => found, rfl⟩
  | n + 1, gains, raws, [], short, _, _, _ => absurd short (by simp)
  | n + 1, gains, raws, first :: chs, room, 0, ch, found => by
    cases found
    have gain : gains.headD 0 = gains.getD 0 0 := by cases gains <;> rfl
    have raw : raws.headD 0 = raws.getD 0 0 := by cases raws <;> rfl
    have count : (scanTines c reverse n gains.tail raws.tail chs).values.length = n := by
      cases chs with
      | nil => cases n with
        | zero => rfl
        | succ n => cases Nat.le_of_succ_le_succ room
      | cons next rest =>
        exact (scanTines_spec c reverse n gains.tail raws.tail (next :: rest) (Nat.le_of_succ_le_succ room) 0 next rfl).2.2
    rw [scanTines, gain, raw]
    exact ⟨fun _ => ⟨rfl, rfl, fun warn => by simp only [warn, Bool.true_or]⟩, nofun, congrArg (· + 1) count⟩
  | n + 1, gains, raws, first :: chs, room, i + 1, ch, found => by
    obtain ⟨below, above, count⟩ := scanTines_spec c reverse n gains.tail raws.tail chs (Nat.le_of_succ_le_succ room) i ch found
    have gain : gains.tail.getD i 0 = gains.getD (i + 1) 0 := by cases gains <;> simp
    have raw : raws.tail.getD i 0 = raws.getD (i + 1) 0 := by cases raws <;> simp
    rw [gain, raw] at below
    rw [scanTines]
    refine ⟨fun inside => ?_, fun outside => above (Nat.le_of_succ_le_succ outside), congrArg (· + 1) count⟩
    obtain ⟨channel, value, warn⟩ := below (Nat.lt_of_succ_lt_succ inside)
    exact ⟨channel, value, fun due => by simp only [warn due, Bool.or_true]⟩

end Sys2Proof.Machine

/-! ## What is done with a sample -/

namespace Sys2Proof.Machine

/-! ### The sample of the oldest firing -/

/-- The block when the oldest firing has been taken out and its sample made. -/
def sampled (h : HeadId) (f : Firing) (rest : List Firing) (own companion : List Raw) (s : State) : State :=
  (makeSample h f own companion (s.head h).contactReached (endFiring h f rest s)).2

theorem sampleOf_eq (s : State) (h : HeadId) (f : Firing) (rest : List Firing) (own companion : List Raw) :
    makeSample h f own companion ((endFiring h f rest s).head h).contactReached (endFiring h f rest s) =
      (sampleOf s h f rest own companion, sampled h f rest own companion s) := by
  rw [show (endFiring h f rest s).head h = s.head h from congrArg (Four.get · h) (head_endFiring ..)]
  rfl

theorem makeSample_kept (x : HeadId) (f : Firing) (own companion : List Raw) (reverse : Bool) (s : State) :
    (makeSample x f own companion reverse s).2.tools = s.tools ∧ (makeSample x f own companion reverse s).2.plans = s.plans ∧
    (makeSample x f own companion reverse s).2.choices = s.choices := by
  unfold makeSample
  dsimp only
  (repeat' split) <;> exact ⟨rfl, rfl, rfl⟩

theorem endFiring_kept (x : HeadId) (f : Firing) (rest : List Firing) (s : State) :
    (endFiring x f rest s).tools = s.tools ∧ (endFiring x f rest s).plans = s.plans ∧
    (endFiring x f rest s).control = s.control ∧ (endFiring x f rest s).choices = s.choices := by
  unfold endFiring
  dsimp only
  split <;> exact ⟨rfl, rfl, rfl, rfl⟩

section
variable {h : HeadId} {f : Firing} {rest : List Firing} {own companion : List Raw} {s : State}

theorem sampled_heads : (sampled h f rest own companion s).heads = s.heads :=
  (head_makeSample ..).trans (head_endFiring ..)

theorem sampled_head (k : HeadId) : (sampled h f rest own companion s).head k = s.head k :=
  congrArg (Four.get · k) sampled_heads

theorem sampled_kept : (sampled h f rest own companion s).tools = s.tools ∧ (sampled h f rest own companion s).plans = s.plans ∧
    (sampled h f rest own companion s).choices = s.choices := by
  obtain ⟨tools, plans, choices⟩ := makeSample_kept h f own companion (s.head h).contactReached (endFiring h f rest s)
  obtain ⟨tools', plans', _, choices'⟩ := endFiring_kept h f rest s
  exact ⟨tools.trans tools', plans.trans plans', choices.trans choices'⟩

theorem sampled_frame : Confined HeadId.all s (sampled h f rest own companion s) :=
  ((endFiring_worked (P := fun _ => True) h f rest s).trans (makeSample_worked ..)).frame

theorem sampled_setup : (sampled h f rest own companion s).setup = s.setup := sampled_frame.setup

end

theorem sense_endFiring_partner {x : HeadId} {s : State} (other : x ≠ x.companion) (f : Firing) (rest : List Firing) :
    ∃ scanning, (endFiring x f rest s).sense x.companion = { s.sense x.companion with scanning := scanning } := by
  unfold endFiring
  dsimp only
  split
  · rw [sense_modSense_same, sense_modSense_other other.symm]
    exact ⟨_, rfl⟩
  · rw [sense_modSense_other other.symm]
    exact ⟨(s.sense x.companion).scanning, rfl⟩

theorem scannedOr_endFiring (started reverse : Bool) {x k : HeadId} {f : Firing} {rest : List Firing} {s : State}
    (channels : ((endFiring x f rest s).sense k).channels = (s.sense k).channels) (raws : List Raw) :
    scannedOr started reverse (endFiring x f rest s) k raws = scannedOr started reverse s k raws := by
  obtain ⟨tools, _, control, _⟩ := endFiring_kept x f rest s
  simp only [scannedOr, State.tool, State.setup, tools, control, channels]

/-- The sample of a firing and the front-ends after it, by what the block holds at its completion. -/
theorem sampled_spec {h : HeadId} {s : State} (apart : s.apart h) (f : Firing) (rest : List Firing)
    (own companion : List Raw) :
    let r := scannedOr f.own (s.head h).contactReached s h own
    let q := partnerScanned f (s.head h).contactReached s h companion
    let u := sampled h f rest own companion s
    sampleOf s h f rest own companion =
      { depth := f.depth
        own := r.values
        companion := q.values
        ownHealth := (r.channels.take (s.tool h).tines).map (·.health)
        companionHealth :=
          if (s.head h).gang then (q.channels.take (s.tool h.companion).tines).map (·.health) else []
        sum := scannedSum r q
        timed := f.kind.timed } ∧
    (∃ scanning, u.sense h = { s.sense h with
      firings := rest, scanning := scanning, channels := r.channels,
      peak := max (s.sense h).peak (scannedSum r q), latest := scannedSum r q }) ∧
    ((s.head h).gang = true → ∃ scanning, u.sense h.companion =
      { s.sense h.companion with scanning := scanning, channels := q.channels }) ∧
    (r.warn = true ∨ (s.head h).gang = true ∧ q.warn = true → flagged .chwarn u) := by
  intro r q u
  let a := endFiring h f rest s
  have head : a.head h = s.head h := congrArg (Four.get · h) (head_endFiring ..)
  have tool : ∀ k, a.tool k = s.tool k := fun k => congrArg (Four.get · k) (endFiring_kept h f rest s).1
  obtain ⟨scanning, sense⟩ := sense_endFiring h f rest s
  have rs : scannedOr f.own (s.head h).contactReached a h own = r := scannedOr_endFiring _ _ (by rw [sense]) _
  have qs : partnerScanned f (s.head h).contactReached a h companion = q ∨ (s.head h).gang = false := by
    cases single : (s.head h).gang
    · exact .inr rfl
    · obtain ⟨_, partner⟩ := sense_endFiring_partner (s := s) (apart single) f rest
      refine .inl ?_
      unfold q partnerScanned
      rw [head, single, if_pos rfl, if_pos rfl]
      exact scannedOr_endFiring _ _ (by rw [partner]) _
  have values : (partnerScanned f (s.head h).contactReached a h companion).values = q.values := by
    rcases qs with same | single
    · rw [same]
    · unfold q partnerScanned
      rw [head, single]
      rfl
  have sums : scannedSum r (partnerScanned f (s.head h).contactReached a h companion) = scannedSum r q := by
    rw [scannedSum, values, scannedSum]
  have spec := makeSample_spec (x := h) (f := f) (ownRaw := own) (partnerRaw := companion)
    (reverse := (s.head h).contactReached) (s := a) (by rw [State.apart, head]; exact apart)
  dsimp only at spec
  rw [rs, head, tool, tool, sums, values] at spec
  obtain ⟨sample, ownSense, partnerSense, warned⟩ := spec
  have partner : (s.head h).gang = true → partnerScanned f (s.head h).contactReached a h companion = q := fun gang =>
    qs.resolve_right (by rw [gang]; exact nofun)
  refine ⟨sample.trans ?_, ⟨scanning, ?_⟩, fun gang => ?_, fun warn => warned ?_⟩
  · cases gang : (s.head h).gang
    · rfl
    · rw [partner gang]
  · rw [show u.sense h = _ from ownSense, sense]
  · obtain ⟨scanning', sense'⟩ := sense_endFiring_partner (s := s) (apart gang) f rest
    refine ⟨scanning', ?_⟩
    rw [show u.sense h.companion = _ from partnerSense gang, partner gang, sense']
  · rcases warn with first | ⟨gang, second⟩
    · exact .inl first
    · exact .inr ⟨gang, by rw [partner gang]; exact second⟩

theorem scanFinished_sample {h : HeadId} {f : Firing} {rest : List Firing} {s : State}
    (front : (s.sense h).firings = f :: rest) (kept : f.discard = false) (own companion : List Raw) (race : SampleRace) :
    (f.kind = .step → scanFinished h own companion race s =
      stepSample h (sampleOf s h f rest own companion) race (sampled h f rest own companion s)) ∧
    (f.kind = .dwell → scanFinished h own companion race s =
      forceTest h (sampleOf s h f rest own companion) (sampled h f rest own companion s)) ∧
    (f.kind = .late → scanFinished h own companion race s =
      lateSample h (sampleOf s h f rest own companion) (sampled h f rest own companion s)) := by
  refine ⟨fun kind => ?_, fun kind => ?_, fun kind => ?_⟩ <;>
    simp only [scanFinished, front, kept, kind, sampleOf_eq, Bool.false_eq_true, if_false]

end Sys2Proof.Machine

/-! ## What stands when a sample has been judged -/

namespace Sys2Proof.Machine

/-- The readings of every head stand, and history and contact detection of every head but `h`. -/
structure Measured (h : HeadId) (s t : State) : Prop where
  readings : ∀ k, (t.sense k).channels = (s.sense k).channels ∧ (t.sense k).latest = (s.sense k).latest ∧
    (t.sense k).peak = (s.sense k).peak
  others : ∀ k, k ≠ h → (t.sense k).history = (s.sense k).history ∧ (t.sense k).contact = (s.sense k).contact

theorem Measured.of_senses {h : HeadId} {s t : State} (same : t.senses = s.senses) : Measured h s t := by
  have each : ∀ k, t.sense k = s.sense k := fun k => congrArg (Four.get · k) same
  exact ⟨fun k => by rw [each]; exact ⟨rfl, rfl, rfl⟩, fun k _ => by rw [each]; exact ⟨rfl, rfl⟩⟩

theorem Measured.refl (h : HeadId) (s : State) : Measured h s s := .of_senses rfl

theorem Measured.trans {h : HeadId} {s t u : State} (a : Measured h s t) (b : Measured h t u) : Measured h s u := by
  refine ⟨fun k => ?_, fun k other => ?_⟩
  · obtain ⟨channels, latest, peak⟩ := a.readings k
    obtain ⟨channels', latest', peak'⟩ := b.readings k
    exact ⟨channels'.trans channels, latest'.trans latest, peak'.trans peak⟩
  · obtain ⟨history, contact⟩ := a.others k other
    obtain ⟨history', contact'⟩ := b.others k other
    exact ⟨history'.trans history, contact'.trans contact⟩

theorem modSense_measured {f : Sense → Sense}
    (keeps : ∀ n, (f n).channels = n.channels ∧ (f n).latest = n.latest ∧ (f n).peak = n.peak) (h : HeadId) (s : State) :
    Measured h s (modSense h f s) := by
  refine ⟨fun k => ?_, fun k other => ?_⟩
  · rw [sense_modSense]
    split
    · exact keeps _
    · exact ⟨rfl, rfl, rfl⟩
  · rw [sense_modSense_other other]
    exact ⟨rfl, rfl⟩

theorem sense_haltContact (x : HeadId) (s : State) (k : HeadId) : (haltContact x s).sense k =
    if k = x ∧ (s.head x).state = .seek then { s.sense k with contact := Contact.cleared } else s.sense k := by
  unfold haltContact
  by_cases seek : (s.head x).state = .seek
  · rw [if_pos seek, sense_modSense]
    simp only [seek, and_true]
  · rw [if_neg seek, if_neg (fun both => seek both.2)]

theorem sense_haltUnit_eq (why : Reason) (x : HeadId) (s : State) (k : HeadId) : (haltUnit why x s).sense k =
    if k ∈ s.unit x then ((haltContact x s).sense k).disarm else (haltContact x s).sense k := by
  have told : ∀ j, (haltTold why x s).sense j = (haltContact x s).sense j := fun j =>
    congrArg (Four.get · j) (haltPlan_senses why x (haltContact x s))
  have halted : (haltUnit why x s).sense k = (eachHead (haltHead why) (s.unit x) (haltTold why x s)).sense k := by
    rw [haltUnit_eq, State.sense, haltOutcome_senses]
    rfl
  rw [halted, sense_eachHead (g := fun _ n => n.disarm) (haltHead_senses why) _ _ (unit_nodup s x), told]

theorem haltUnit_measured (why : Reason) (x : HeadId) (s : State) : Measured x s (haltUnit why x s) := by
  refine ⟨fun k => ?_, fun k other => ?_⟩
  · rw [sense_haltUnit_eq, sense_haltContact]
    split <;> split <;> exact ⟨rfl, rfl, rfl⟩
  · have same : (haltContact x s).sense k = s.sense k := by rw [sense_haltContact, if_neg (fun both => other both.1)]
    rw [sense_haltUnit_eq, same]
    split <;> exact ⟨rfl, rfl⟩

/-! ### The steps that leave every front-end alone -/

theorem modPlan_senses (x : HeadId) (f : Plan → Plan) (s : State) : (modPlan x f s).senses = s.senses := by
  unfold modPlan
  split <;> rfl

theorem takeReplay_senses (x : HeadId) (o : Order) (smps : List Sample) (s : State) :
    (takeReplay x o smps s).senses = s.senses := modPlan_senses ..

theorem takeSample_senses (x : HeadId) (o : Order) (smp : Sample) (s : State) :
    (takeSample x o smp s).senses = s.senses := modPlan_senses ..

theorem closePress_senses (x : HeadId) (o : Order) (smp : Sample) (seated : Bool) (s : State) :
    (closePress x o smp seated s).senses = s.senses := by
  unfold closePress
  split <;> rfl

theorem beginResults_senses (x : HeadId) (s : State) : (beginResults x s).senses = s.senses := by
  unfold beginResults
  dsimp only
  split
  · rfl
  · exact beginClosing_senses ..

theorem kickTrace_senses (x : HeadId) (s : State) : (kickTrace x s).senses = s.senses := by
  unfold kickTrace
  dsimp only
  split
  · rfl
  · split <;> rfl

/-! ### The steps of a sample -/

theorem sense_stopRam (x : HeadId) (s : State) (k : HeadId) :
    (stopRam x s).sense k = if k = x then (s.sense k).endTrigger else s.sense k := by
  have same : (disarmGuards x (setDrive Drive.held x s)).sense k = s.sense k :=
    congrArg (Four.get · k) ((eachModHead_senses (fun _ => Head.disarm) ..).trans
      (eachModHead_senses (fun _ => Head.drive Drive.held) ..))
  rw [stopRam, sense_modSense, same]

theorem stopRam_measured (x : HeadId) (s : State) : Measured x s (stopRam x s) := by
  refine ⟨fun k => ?_, fun k other => ?_⟩
  · rw [sense_stopRam]
    split <;> exact ⟨rfl, rfl, rfl⟩
  · rw [sense_stopRam, if_neg other]
    exact ⟨rfl, rfl⟩

theorem endPress_measured (x : HeadId) (o : Order) (smp : Sample) (seated : Bool) (s : State) :
    Measured x s (endPress x o smp seated s) := by
  have closed : Measured x s (closePress x o smp seated s) := .of_senses (closePress_senses ..)
  unfold endPress
  dsimp only
  refine (closed.trans (stopRam_measured ..)).trans (.of_senses ?_)
  split
  · exact beginResults_senses ..
  · exact enterState_senses ..

theorem pressTests_measured (x : HeadId) (o : Order) (smp : Sample) (race : SampleRace) (s : State) :
    Measured x s (pressTests x o smp race s) := by
  unfold pressTests
  dsimp only
  split
  · exact endPress_measured ..
  · split
    · exact haltUnit_measured ..
    · exact .refl ..

theorem markFaulted_senses (x : HeadId) (s : State) : (markFaulted x s).senses = s.senses := modPlan_senses ..

theorem pressSample_measured (x : HeadId) (o : Order) (smp : Sample) (race : SampleRace) (s : State) :
    Measured x s (pressSample x o smp race s) := by
  have taken : Measured x s (markFaulted x (takeSample x o smp s)) :=
    .of_senses ((markFaulted_senses ..).trans (takeSample_senses ..))
  have before : Measured x s (if race.evaluatorFirst then markFaulted x (takeSample x o smp s) else markFaulted x s) := by
    split
    · exact taken
    · exact .of_senses (markFaulted_senses ..)
  unfold pressSample
  dsimp only
  split
  · exact before.trans (haltUnit_measured ..)
  · split
    · exact before.trans (haltUnit_measured ..)
    · exact taken.trans (pressTests_measured ..)

theorem confirmContact_measured (x : HeadId) (o : Order) (smp : Sample) (race : SampleRace) (s : State) :
    Measured x s (confirmContact x o smp race s) := by
  unfold confirmContact
  extract_lets dc replay a b c
  have hc : Measured x s c := .of_senses ((modPlan_senses ..).trans ((enterState_senses ..).trans rfl))
  have replayed : ∀ smps d, Measured x c (takeReplay x o smps { c with choices := d }) := fun smps d =>
    .of_senses (takeReplay_senses ..)
  refine hc.trans ?_
  split
  · exact (replayed replay c.choices).trans (pressTests_measured ..)
  · split
    · exact (replayed _ _).trans (haltUnit_measured ..)
    · exact (replayed replay c.choices).trans (pressTests_measured ..)

theorem noContact_measured (x : HeadId) (s : State) : Measured x s (noContact x s) := by
  unfold noContact
  split
  · next p _ =>
    let a := modHead x (fun m => { m with handed := some p.noContact.2 }) (setPlan x (.built p.noContact.1) s)
    have ha : Measured x s a := .of_senses rfl
    exact (ha.trans (stopRam_measured x a)).trans (.of_senses (beginResults_senses ..))
  · exact .refl ..
  · exact .refl ..

theorem seekSample_measured (x : HeadId) (o : Order) (smp : Sample) (race : SampleRace) (s : State) :
    Measured x s (seekSample x o smp race s) := by
  unfold seekSample
  extract_lets a
  have ha : Measured x s a := modSense_measured (by exact fun _ => ⟨rfl, rfl, rfl⟩) x s
  refine ha.trans ?_
  split
  · exact haltUnit_measured ..
  · split
    · exact confirmContact_measured ..
    · split
      · exact noContact_measured ..
      · exact .refl ..

theorem approachSample_measured (x : HeadId) (o : Order) (smp : Sample) (race : SampleRace) (s : State) :
    Measured x s (approachSample x o smp race s) := by
  unfold approachSample
  split
  · let a := modSense x (fun n => { n with contact := Contact.cleared }) (enterState .seek x s)
    have entered : Measured x s (enterState .seek x s) := .of_senses (enterState_senses ..)
    have ha : Measured x (enterState .seek x s) a := modSense_measured (by exact fun _ => ⟨rfl, rfl, rfl⟩) x _
    exact (entered.trans ha).trans (seekSample_measured ..)
  · split
    · exact haltUnit_measured ..
    · exact .refl ..

theorem stepSample_measured (x : HeadId) (smp : Sample) (race : SampleRace) (s : State) :
    Measured x s (stepSample x smp race s) := by
  have kicked : ∀ t, Measured x t (kickTrace x t) := fun t => .of_senses (kickTrace_senses ..)
  have marked : ∀ t, Measured x t (markFaulted x t) := fun t => .of_senses (markFaulted_senses ..)
  unfold stepSample
  extract_lets a
  have ha : Measured x s a := modSense_measured (by exact fun _ => ⟨rfl, rfl, rfl⟩) x s
  refine ha.trans ?_
  split
  · exact .refl ..
  · split
    · exact ((marked _).trans (approachSample_measured ..)).trans (kicked _)
    · exact ((marked _).trans (seekSample_measured ..)).trans (kicked _)
    · exact (pressSample_measured ..).trans (kicked _)
    all_goals exact .refl ..

theorem forceTest_measured (x : HeadId) (smp : Sample) (s : State) : Measured x s (forceTest x smp s) := by
  unfold forceTest
  split
  · exact .refl ..
  · split
    · exact haltUnit_measured ..
    · exact .refl ..

theorem lateSample_measured (x : HeadId) (smp : Sample) (s : State) : Measured x s (lateSample x smp s) := by
  unfold lateSample
  split
  · let a := modSense x (fun n => { n with
      history := addHistory n.history smp
      contact := n.contact.take s.setup smp.depth smp.sum }) s
    have ha : Measured x s a := modSense_measured (by exact fun _ => ⟨rfl, rfl, rfl⟩) x s
    exact ha.trans (forceTest_measured ..)
  · exact forceTest_measured ..

end Sys2Proof.Machine

/-! ## Tests on a sample -/

namespace Sys2Proof.Machine

/-! ### Overforce (R63) -/

theorem overforce_iff {s u : State} (tools : u.tools = s.tools) (x : HeadId) (o : Order) (smp : Sample) :
    u.overforce x o smp = true ↔ tooStrong s x o smp := by
  have tool : ∀ k, u.tool k = s.tool k := fun k => congrArg (Four.get · k) tools
  simp only [State.overforce, tooStrong, tool, Bool.or_eq_true, decide_eq_true_eq, or_assoc]

/-! ### The trace write behind a sample -/

theorem head_kickTrace (x : HeadId) (s : State) (k : HeadId) :
    ∃ trace, (kickTrace x s).head k = { s.head k with trace := trace } ∧ (k ≠ x → trace = (s.head k).trace) := by
  unfold kickTrace
  dsimp only
  split
  · exact ⟨_, rfl, fun _ => rfl⟩
  · split
    · by_cases own : k = x
      · subst own
        have head := head_modHead_same k (fun m => { m with trace := { m.trace with inFlight := m.trace.rows.length } }) s
        exact ⟨_, head, fun other => absurd rfl other⟩
      · have head := head_modHead_other own (fun m => { m with trace := { m.trace with inFlight := m.trace.rows.length } }) s
        exact ⟨(s.head k).trace, head, fun _ => rfl⟩
    · exact ⟨_, rfl, fun _ => rfl⟩

theorem haltedBy.of_kickTrace {why : Reason} {us : List HeadId} {s : State} (halted : haltedBy why us s) (x : HeadId) :
    haltedBy why us (kickTrace x s) := by
  refine ⟨fun k mine => ?_, (kickTrace_worked (P := fun _ => True) x.mem_all s).frame.flagged halted.2⟩
  obtain ⟨trace, head, _⟩ := head_kickTrace x s k
  have sense : (kickTrace x s).sense k = s.sense k := congrArg (Four.get · k) (kickTrace_senses x s)
  rw [head, sense]
  exact halted.1 k mine

/-! ### A step-triggered sample, by the state it meets (R91, R94) -/

/-- The sample entered into the history. -/
def historyKept (x : HeadId) (smp : Sample) (s : State) : State :=
  modSense x (fun n => { n with history := addHistory n.history smp }) s

theorem stepSample_of {x : HeadId} {s : State} {o : Order} (order : (s.head x).current = some o) (smp : Sample)
    (race : SampleRace) :
    ((s.head x).state = .approach → stepSample x smp race s =
      kickTrace x (approachSample x o smp race (markFaulted x (historyKept x smp s)))) ∧
    ((s.head x).state = .seek → stepSample x smp race s =
      kickTrace x (seekSample x o smp race (markFaulted x (historyKept x smp s)))) ∧
    ((s.head x).state = .press → stepSample x smp race s =
      kickTrace x (pressSample x o smp race (historyKept x smp s))) := by
  refine ⟨fun state => ?_, fun state => ?_, fun state => ?_⟩ <;>
    simp only [stepSample, head_modSense, order, state, historyKept]

theorem markFaulted_heads (x : HeadId) (s : State) : (markFaulted x s).heads = s.heads := modPlan_heads ..

theorem modPlan_tools (x : HeadId) (f : Plan → Plan) (s : State) : (modPlan x f s).tools = s.tools := by
  unfold modPlan
  split <;> rfl

theorem markFaulted_setup (x : HeadId) (s : State) : (markFaulted x s).setup = s.setup :=
  (markFaulted_worked (P := fun _ => True) x.mem_all s).frame.setup

section
variable {h : HeadId} {f : Firing} {rest : List Firing} {own companion : List Raw} {s : State} {o : Order}
  {race : SampleRace}

/-- The halt of a sample's own head, whatever has been noted before it. -/
theorem haltedBy_sample {why : Reason} {u : State} (heads : (u.head h).gang = (s.head h).gang) :
    haltedBy why (s.unit h) (haltUnit why h u) := by
  rw [← unit_congr heads]
  exact haltedBy_haltUnit why h u

theorem sample_earlyContact (front : (s.sense h).firings = f :: rest) (kept : f.discard = false) (kind : f.kind = .step)
    (order : (s.head h).current = some o) (state : (s.head h).state = .approach)
    (short : (sampleOf s h f rest own companion).depth < o.approachEnd)
    (strong : s.setup.contactThreshold ≤ (sampleOf s h f rest own companion).sum) :
    haltedBy .earlyContact (s.unit h) (scanFinished h own companion race s) := by
  let u := markFaulted h (historyKept h (sampleOf s h f rest own companion) (sampled h f rest own companion s))
  have head : u.head h = s.head h := (congrArg (Four.get · h) (markFaulted_heads ..)).trans (sampled_head h)
  have setup : u.setup = s.setup := (markFaulted_setup ..).trans sampled_setup
  rw [(scanFinished_sample front kept own companion race).1 kind,
    (stepSample_of (by rw [sampled_head]; exact order) _ race).1 (by rw [sampled_head]; exact state)]
  have halts : approachSample h o (sampleOf s h f rest own companion) race u = haltUnit .earlyContact h u := by
    rw [approachSample, if_neg (by omega), if_pos (by rw [setup]; exact strong)]
  rw [show approachSample h o _ race (markFaulted h _) = _ from halts]
  exact (haltedBy_sample (by rw [head])).of_kickTrace h

theorem sample_seekOverforce (front : (s.sense h).firings = f :: rest) (kept : f.discard = false) (kind : f.kind = .step)
    (order : (s.head h).current = some o) (state : (s.head h).state = .seek)
    (strong : tooStrong s h o (sampleOf s h f rest own companion)) :
    haltedBy .overforce (s.unit h) (scanFinished h own companion race s) := by
  let u := markFaulted h (historyKept h (sampleOf s h f rest own companion) (sampled h f rest own companion s))
  have head : u.head h = s.head h := (congrArg (Four.get · h) (markFaulted_heads ..)).trans (sampled_head h)
  have tools : u.tools = s.tools := (modPlan_tools ..).trans sampled_kept.1
  rw [(scanFinished_sample front kept own companion race).1 kind,
    (stepSample_of (by rw [sampled_head]; exact order) _ race).2.1 (by rw [sampled_head]; exact state)]
  refine haltedBy.of_kickTrace ?_ h
  show haltedBy _ _ (seekSample h o _ race u)
  unfold seekSample
  extract_lets a
  rw [if_pos ((overforce_iff (u := a) tools h o _).mpr strong)]
  exact haltedBy_sample (u := a) (by rw [show a.head h = u.head h from rfl, head])

/-- In PRESS the state that a halt meets, the evaluator first or not. -/
theorem press_before (x : HeadId) (o : Order) (smp : Sample) (s : State) (first : Bool) :
    ((if first then markFaulted x (takeSample x o smp s) else markFaulted x s).head x).gang = (s.head x).gang := by
  split
  · rw [State.head, markFaulted_heads]
    show ((takeSample x o smp s).head x).gang = _
    rw [takeSample, addRows, head_modHead_same, State.head, modPlan_heads]
    rfl
  · rw [State.head, markFaulted_heads]
    rfl

theorem sample_pressOverforce (front : (s.sense h).firings = f :: rest) (kept : f.discard = false) (kind : f.kind = .step)
    (order : (s.head h).current = some o) (state : (s.head h).state = .press)
    (calm : s.pinHaltAsked h = false ∨ race.requestArrives = false)
    (strong : tooStrong s h o (sampleOf s h f rest own companion)) :
    haltedBy .overforce (s.unit h) (scanFinished h own companion race s) := by
  let u := historyKept h (sampleOf s h f rest own companion) (sampled h f rest own companion s)
  have head : u.head h = s.head h := sampled_head h
  have asked : u.pinHaltAsked h = s.pinHaltAsked h := by
    simp only [State.pinHaltAsked, State.plan, show u.plans = s.plans from sampled_kept.2.1]
  have quiet : (u.pinHaltAsked h && race.requestArrives) = false := by
    rw [asked]
    rcases calm with none | late
    · rw [none, Bool.false_and]
    · rw [late, Bool.and_false]
  rw [(scanFinished_sample front kept own companion race).1 kind,
    (stepSample_of (by rw [sampled_head]; exact order) _ race).2.2 (by rw [sampled_head]; exact state)]
  refine haltedBy.of_kickTrace ?_ h
  show haltedBy _ _ (pressSample h o _ race u)
  unfold pressSample
  dsimp only
  rw [quiet, if_neg Bool.false_ne_true, if_pos ((overforce_iff (u := u) sampled_kept.1 h o _).mpr strong)]
  exact haltedBy_sample ((press_before ..).trans (by rw [head]))

theorem sample_dwellOverforce (front : (s.sense h).firings = f :: rest) (kept : f.discard = false) (kind : f.kind = .dwell)
    (order : (s.head h).current = some o) (state : (s.head h).state = .dwell)
    (strong : tooStrong s h o (sampleOf s h f rest own companion)) :
    haltedBy .overforce (s.unit h) (scanFinished h own companion race s) := by
  rw [(scanFinished_sample front kept own companion race).2.1 kind]
  simp only [forceTest, sampled_head, order, state, (overforce_iff sampled_kept.1 h o _).mpr strong, HeadState.underForce,
    Bool.and_self, if_true]
  exact haltedBy_sample (by rw [sampled_head])

/-- The completion leaves what the sample has made of the front-ends. -/
theorem scanFinished_measured (front : (s.sense h).firings = f :: rest) (kept : f.discard = false) (kind : f.kind ≠ .tare) :
    Measured h (sampled h f rest own companion s) (scanFinished h own companion race s) ∧
    (flagged .chwarn (sampled h f rest own companion s) → flagged .chwarn (scanFinished h own companion race s)) := by
  obtain ⟨step, dwell, late⟩ := scanFinished_sample front kept own companion race
  cases of : f.kind
  case tare => exact absurd of kind
  case step =>
    rw [step of]
    exact ⟨stepSample_measured .., fun set =>
      (stepSample_worked (P := fun _ => True) (subset_all _) _ race fun _ => ⟨trivial, trivial, trivial⟩).frame.flagged set⟩
  case dwell =>
    rw [dwell of]
    exact ⟨forceTest_measured .., fun set => (forceTest_worked (P := fun _ => True) (subset_all _) _).frame.flagged set⟩
  case late =>
    rw [late of]
    exact ⟨lateSample_measured .., fun set => (lateSample_worked (P := fun _ => True) (subset_all _) _).frame.flagged set⟩

end

end Sys2Proof.Machine

/-! ## Samples and their halts -/

namespace Sys2Proof.Machine

theorem scannedSum_eq (r q : Scanned) : scannedSum r q = ((r.values ++ q.values).filterMap id).sum := by
  rw [scannedSum, sumPresent_eq, sumPresent_eq, List.filterMap_append, List.sum_append]

/-- The sample of a single head's scan (R90, R91). -/
theorem single_sample {s : State} {h : HeadId} {own companion : List Raw} {race : SampleRace} {f : Firing}
    {rest : List Firing} (front : (s.sense h).firings = f :: rest) (kept : f.discard = false) (kind : f.kind ≠ .tare)
    (started : f.own = true) (single : (s.head h).gang = false) :
    Answers (.scanComplete h own companion race) s (fun t =>
      let r := scanTines s.setup (s.head h).contactReached (s.tool h).tines (s.tool h).gains own
        (s.sense h).channels
      let smp := sampleOf s h f rest own companion
      (t.sense h).channels = r.channels ∧ (r.warn = true → flagged .chwarn t) ∧
      smp.depth = f.depth ∧ smp.own = r.values ∧ smp.companion = [] ∧
      smp.sum = (r.values.filterMap id).sum ∧
      (t.sense h).latest = smp.sum ∧ (t.sense h).peak = max (s.sense h).peak smp.sum) := by
  have apart : s.apart h := fun gang => by rw [single] at gang; cases gang
  obtain ⟨sample, ⟨scanning, sense⟩, _, warned⟩ := sampled_spec apart f rest own companion
  obtain ⟨measured, keeps⟩ := scanFinished_measured (own := own) (companion := companion) (race := race) front kept kind
  obtain ⟨channels, latest, peak⟩ := measured.readings h
  have nothing : partnerScanned f (s.head h).contactReached s h companion =
      { channels := (s.sense h.companion).channels, values := [], warn := false } := if_neg (by rw [single]; exact nofun)
  have scanned : scannedOr f.own (s.head h).contactReached s h own = scanTines s.setup (s.head h).contactReached
      (s.tool h).tines (s.tool h).gains own (s.sense h).channels := if_pos started
  rw [sense] at channels latest peak
  rw [nothing, scanned] at sample channels latest peak
  rw [scanned] at warned
  refine .of_finish (u := scanFinished h own companion race s) rfl fun t e => ?_
  intro r smp
  have total : smp.sum = scannedSum r { channels := (s.sense h.companion).channels, values := [], warn := false } :=
    congrArg Sample.sum sample
  refine ⟨by rw [e.sense, channels], fun warn => e.flagged (keeps (warned (.inl warn))), congrArg Sample.depth sample,
    congrArg Sample.own sample, congrArg Sample.companion sample, ?_, by rw [e.sense, latest, total],
    by rw [e.sense, peak, total]⟩
  rw [total, scannedSum_eq, List.append_nil]

/-- The sample of a gang (R82, R90, R126). -/
theorem gang_sample {s : State} {h k : HeadId} {own companion : List Raw} {race : SampleRace} {f : Firing}
    {rest : List Firing} (front : (s.sense h).firings = f :: rest) (kept : f.discard = false) (kind : f.kind ≠ .tare)
    (gang : (s.head h).gang = true) (primary : h = h.primary) (partner : k = h.companion) :
    Answers (.scanComplete h own companion race) s (fun t =>
      let r := scannedOr f.own (s.head h).contactReached s h own
      let q := scannedOr f.companion (s.head h).contactReached s k companion
      let smp := sampleOf s h f rest own companion
      (t.sense h).channels = r.channels ∧ (t.sense k).channels = q.channels ∧
      (r.warn = true ∨ q.warn = true → flagged .chwarn t) ∧
      smp.depth = f.depth ∧ smp.own = r.values ∧ smp.companion = q.values ∧
      smp.ownHealth = (r.channels.take (s.tool h).tines).map (·.health) ∧
      smp.companionHealth = (q.channels.take (s.tool k).tines).map (·.health) ∧
      smp.sum = ((r.values ++ q.values).filterMap id).sum ∧
      (t.sense h).latest = smp.sum ∧ (t.sense h).peak = max (s.sense h).peak smp.sum ∧
      (t.sense k).latest = (s.sense k).latest ∧ (t.sense k).peak = (s.sense k).peak ∧
      (t.sense k).history = (s.sense k).history ∧ (t.sense k).contact = (s.sense k).contact) := by
  subst partner
  have other : h ≠ h.companion := fun own => h.companion_ne_primary (own.symm.trans primary)
  obtain ⟨sample, ⟨scanning, sense⟩, partnerSense, warned⟩ := sampled_spec (s := s) (h := h) (fun _ => other) f rest own companion
  obtain ⟨scanning', partnerSense⟩ := partnerSense gang
  obtain ⟨measured, keeps⟩ := scanFinished_measured (own := own) (companion := companion) (race := race) front kept kind
  obtain ⟨channels, latest, peak⟩ := measured.readings h
  obtain ⟨channels', latest', peak'⟩ := measured.readings h.companion
  obtain ⟨history', contact'⟩ := measured.others h.companion other.symm
  have both : partnerScanned f (s.head h).contactReached s h companion =
      scannedOr f.companion (s.head h).contactReached s h.companion companion := if_pos gang
  rw [sense] at channels latest peak
  rw [partnerSense] at channels' latest' peak' history' contact'
  rw [both] at sample latest peak channels' warned
  rw [gang] at sample warned
  refine .of_finish (u := scanFinished h own companion race s) rfl fun t e => ?_
  intro r q smp
  have total : smp.sum = scannedSum r q := congrArg Sample.sum sample
  refine ⟨by rw [e.sense, channels], by rw [e.sense, channels'], fun warn => e.flagged (keeps (warned (warn.imp_right fun w => ⟨rfl, w⟩))),
    congrArg Sample.depth sample, congrArg Sample.own sample, congrArg Sample.companion sample, congrArg Sample.ownHealth sample,
    by rw [show smp = _ from sample]; rfl, by rw [total, scannedSum_eq], by rw [e.sense, latest, total],
    by rw [e.sense, peak, total], by rw [e.sense, latest'], by rw [e.sense, peak'], by rw [e.sense, history'],
    by rw [e.sense, contact']⟩

/-- Settles O29. -/
theorem forceTestsHalt : Obligations.ForceTestsHalt := by
  refine ⟨fun s h own companion race f rest o front kept order => ?_, fun s h own companion race f rest front kept kind started
      single _ => single_sample front kept kind started single,
    fun s h k own companion race f rest front kept kind gang primary partner => gang_sample front kept kind gang primary partner,
    scanTines_spec, fun c reverse gain raw ch => read_spec c reverse gain raw ch⟩
  have halts : ∀ {why}, haltedBy why (s.unit h) (scanFinished h own companion race s) →
      Answers (.scanComplete h own companion race) s (haltedBy why (s.unit h)) := fun halted =>
    .of_finish rfl fun t e => halted.of_ended e
  exact ⟨fun kind state short strong => halts (sample_earlyContact front kept kind order state short strong),
    fun kind state strong => halts (sample_seekOverforce front kept kind order state strong),
    fun kind state calm strong => halts (sample_pressOverforce front kept kind order state calm strong),
    fun kind state strong => halts (sample_dwellOverforce front kept kind order state strong)⟩

end Sys2Proof.Machine

/-! ## The end of the press -/

namespace Sys2Proof.Machine

/-! ### The steps of a press end (R39, R64) -/

theorem head_closePress (x : HeadId) (o : Order) (smp : Sample) (seated : Bool) (s : State) (k : HeadId) :
    ∃ ended handed, (closePress x o smp seated s).head k = { s.head k with pressEnd := ended, handed := handed } := by
  unfold closePress
  split
  · next p _ =>
    by_cases own : k = x
    · subst own
      have head := head_modHead_same k (fun m =>
        { m with pressEnd := some smp.depth, handed := some (p.pressEnd smp.depth o.seatMode seated).2 })
        (setPlan k (.built (p.pressEnd smp.depth o.seatMode seated).1) s)
      exact ⟨_, _, head⟩
    · exact ⟨_, _, head_modHead_other own _ _⟩
  · exact ⟨_, _, rfl⟩
  · exact ⟨_, _, rfl⟩

theorem closePress_of {x : HeadId} {s : State} {p : Plan} (built : s.plan x = .built p) (o : Order) (smp : Sample)
    (seated : Bool) : (closePress x o smp seated s).plan x = .built (p.pressEnd smp.depth o.seatMode seated).1 ∧
    (closePress x o smp seated s).head x = { s.head x with
      pressEnd := some smp.depth
      handed := some (p.pressEnd smp.depth o.seatMode seated).2 } := by
  simp only [closePress, built]
  refine ⟨?_, ?_⟩
  · rw [State.plan, modHead_plans]
    exact Four.get_set_same ..
  · rw [head_modHead_same, head_setPlan]

theorem head_stopRam (x : HeadId) (s : State) (k : HeadId) :
    (stopRam x s).head k = if k ∈ s.unit x then ((s.head k).drive Drive.held).disarm else s.head k := by
  have driven : ∀ j, (setDrive Drive.held x s).head j = if j ∈ s.unit x then (s.head j).drive Drive.held else s.head j :=
    head_setDrive _ x s
  have unit : (setDrive Drive.held x s).unit x = s.unit x := unit_congr (by rw [driven]; split <;> rfl)
  rw [stopRam, head_modSense, disarmGuards, unit, eachHead_modHead (fun _ => Head.disarm) _ _ (unit_nodup s x), driven]
  split <;> rfl

theorem eachModHead_plans (f : HeadId → Head → Head) (hs : List HeadId) (s : State) :
    (eachHead (fun h => modHead h (f h)) hs s).plans = s.plans :=
  eachHead_keeps (P := fun t => t.plans = s.plans) (f := fun h => modHead h (f h)) (fun _ _ same => same) hs s rfl

theorem stopRam_plans (x : HeadId) (s : State) : (stopRam x s).plans = s.plans :=
  (eachModHead_plans (fun _ => Head.disarm) ..).trans (eachModHead_plans (fun _ => Head.drive Drive.held) ..)

theorem head_beginResults (x : HeadId) (s : State) (k : HeadId) :
    ∃ fixed closing, (beginResults x s).head k = { s.head k with outcomeFixed := fixed, closing := closing } := by
  unfold beginResults
  dsimp only
  split
  · exact ⟨_, _, rfl⟩
  · next o _ =>
    obtain ⟨stage, head⟩ := head_beginClosing x (resultsClosing o (s.head x)) s k
    by_cases own : k = x
    · rw [if_pos own] at head
      exact ⟨_, _, head⟩
    · rw [if_neg own] at head
      exact ⟨_, _, head⟩

theorem plan_beginResults (x : HeadId) (s : State) (k : HeadId) : (beginResults x s).plan k = s.plan k := by
  unfold beginResults
  dsimp only
  split
  · rfl
  · exact beginClosing_plan ..

theorem enterState_plans (st : HeadState) (x : HeadId) (s : State) : (enterState st x s).plans = s.plans := by
  have put : (eachHead (putState st) (s.unit x) s).plans = s.plans :=
    eachHead_keeps (P := fun t => t.plans = s.plans) (fun h t same => (putState_plans st h t).trans same) _ _ rfl
  exact (eachModHead_plans (fun _ => Head.drive _) ..).trans put

section
variable {x : HeadId} {s : State} {o : Order}

/-- The ram as it stands at a press end. -/
def ramEnded (x : HeadId) (o : Order) (smp : Sample) (seated : Bool) (s : State) : State :=
  stopRam x (closePress x o smp seated s)

theorem closePress_unit (smp : Sample) (seated : Bool) : (closePress x o smp seated s).unit x = s.unit x := by
  obtain ⟨_, _, head⟩ := head_closePress x o smp seated s x
  exact unit_congr (by rw [head])

theorem ramEnded_unit (smp : Sample) (seated : Bool) : (ramEnded x o smp seated s).unit x = s.unit x := by
  rw [ramEnded, ← closePress_unit (s := s) smp seated]
  exact unit_congr (by rw [head_stopRam]; split <;> rfl)

theorem head_ramEnded (smp : Sample) (seated : Bool) {k : HeadId} (mine : k ∈ s.unit x) :
    ∃ ended handed, (ramEnded x o smp seated s).head k =
      (({ s.head k with pressEnd := ended, handed := handed } : Head).drive Drive.held).disarm := by
  obtain ⟨ended, handed, head⟩ := head_closePress x o smp seated s k
  exact ⟨ended, handed, by rw [ramEnded, head_stopRam, if_pos (by rw [closePress_unit]; exact mine), head]⟩

theorem endPress_now {smp : Sample} {seated : Bool} (now : o.dwellTime = 0) :
    endPress x o smp seated s = beginResults x (ramEnded x o smp seated s) := if_pos now

theorem endPress_dwells {smp : Sample} {seated : Bool} (later : o.dwellTime ≠ 0) : endPress x o smp seated s =
    modHead x (fun m => { m with dwell := some o.dwellTime }) (enterState .dwell x (ramEnded x o smp seated s)) :=
  if_neg later

theorem head_dwelling (smp : Sample) (seated : Bool) {k : HeadId} (mine : k ∈ s.unit x) :
    (enterState .dwell x (ramEnded x o smp seated s)).head k =
      ({ (ramEnded x o smp seated s).head k with state := .dwell } : Head).drive Drive.held := by
  rw [head_enterState, if_pos (by rw [ramEnded_unit]; exact mine)]
  rfl

/-- A head of a unit whose press has ended: its ram still with the brake released, its marks as they were. -/
theorem head_endPress (smp : Sample) (seated : Bool) {k : HeadId} (mine : k ∈ s.unit x) :
    let m := (endPress x o smp seated s).head k
    (m.setpoint = 0 ∧ m.direction = .none ∧ m.brake = false ∧ m.guardArmed = false) ∧
    m.state = (if o.dwellTime = 0 then (s.head k).state else .dwell) ∧
    m.contactReached = (s.head k).contactReached ∧ m.contactDepth = (s.head k).contactDepth := by
  obtain ⟨ended, handed, ram⟩ := head_ramEnded (o := o) smp seated mine
  by_cases now : o.dwellTime = 0
  · obtain ⟨fixed, closing, head⟩ := head_beginResults x (ramEnded x o smp seated s) k
    rw [endPress_now now, head, ram, if_pos now]
    exact ⟨⟨rfl, rfl, rfl, rfl⟩, rfl, rfl, rfl⟩
  · rw [endPress_dwells now, if_neg now]
    have dwelling := head_dwelling (s := s) (o := o) smp seated mine
    by_cases own : k = x
    · subst own
      rw [head_modHead_same, dwelling, ram]
      exact ⟨⟨rfl, rfl, rfl, rfl⟩, rfl, rfl, rfl⟩
    · rw [head_modHead_other own, dwelling, ram]
      exact ⟨⟨rfl, rfl, rfl, rfl⟩, rfl, rfl, rfl⟩

/-- What a press end leaves of the plan, and what it hands over. -/
theorem endPress_closes {p : Plan} (built : s.plan x = .built p) (smp : Sample) (seated : Bool) :
    (endPress x o smp seated s).plan x = .built (p.pressEnd smp.depth o.seatMode seated).1 ∧
    ((endPress x o smp seated s).head x).handed = some (p.pressEnd smp.depth o.seatMode seated).2 ∧
    ((endPress x o smp seated s).head x).pressEnd = some smp.depth := by
  obtain ⟨plan, closed⟩ := closePress_of built o smp seated
  have ram : (ramEnded x o smp seated s).head x = _ :=
    (head_stopRam ..).trans (if_pos (by rw [closePress_unit]; exact mem_unit_self s x))
  have plan' : (ramEnded x o smp seated s).plan x = .built (p.pressEnd smp.depth o.seatMode seated).1 :=
    (congrArg (Four.get · x) (stopRam_plans ..)).trans plan
  rw [closed] at ram
  by_cases now : o.dwellTime = 0
  · obtain ⟨fixed, closing, head⟩ := head_beginResults x (ramEnded x o smp seated s) x
    rw [endPress_now now, plan_beginResults, head, ram]
    exact ⟨plan', rfl, rfl⟩
  · rw [endPress_dwells now, head_modHead_same, head_dwelling smp seated (mem_unit_self s x), ram]
    refine ⟨?_, rfl, rfl⟩
    rw [State.plan, modHead_plans, enterState_plans]
    exact plan'

theorem endPress_disarms (smp : Sample) (seated : Bool) : ((endPress x o smp seated s).sense x).triggerArmed = false := by
  have ram : ((ramEnded x o smp seated s).sense x).triggerArmed = false := by
    rw [ramEnded, sense_stopRam, if_pos rfl]
    rfl
  by_cases now : o.dwellTime = 0
  · rw [endPress_now now, State.sense, beginResults_senses]
    exact ram
  · rw [endPress_dwells now, State.sense, modHead_senses, enterState_senses]
    exact ram

/-- A press end of a stroke with its plan (R64). -/
theorem endPress_ended {p : Plan} (built : s.plan x = .built p) (order : (s.head x).current = some o) (smp : Sample)
    (seated : Bool) : pressEndedAt smp (fun k => (s.head k).state) s x o (endPress x o smp seated s) := by
  obtain ⟨_, _, ended⟩ := endPress_closes (o := o) built smp seated
  refine ⟨fun k mine => (head_endPress smp seated mine).1, endPress_disarms smp seated, ended, ?_⟩
  obtain ⟨_, handed, ram⟩ := head_ramEnded (o := o) (s := s) smp seated (mem_unit_self s x)
  by_cases now : o.dwellTime = 0
  · rw [if_pos now]
    refine ⟨fun k mine => by rw [(head_endPress smp seated mine).2.1, if_pos now], ?_⟩
    have results := beginResults_of (x := x) (s := ramEnded x o smp seated s) (o := o) (by rw [ram]; exact order)
    obtain ⟨stage, head⟩ := head_beginClosing x (resultsClosing o ((ramEnded x o smp seated s).head x)) (ramEnded x o smp seated s) x
    rw [if_pos rfl, ← results, ← endPress_now now] at head
    refine ⟨by rw [head], _, by rw [head], rfl, ?_, rfl, by rw [head]; rfl⟩
    rw [head] at ended
    exact congrArg (Option.getD · 0) ended
  · rw [if_neg now]
    refine ⟨fun k mine => by rw [(head_endPress smp seated mine).2.1, if_neg now], ?_⟩
    rw [endPress_dwells now, head_modHead_same]

end

/-! ### Behind a sample -/

/-- The rest of the completion: a trace write may go to the bus. -/
structure Behind (v t : State) : Prop where
  heads : ∀ k, ∃ trace, t.head k = { v.head k with trace := trace }
  senses : t.senses = v.senses
  plans : t.plans = v.plans
  flagged : ∀ d, flagged d v → flagged d t

theorem kickTrace_plans (x : HeadId) (s : State) : (kickTrace x s).plans = s.plans := by
  unfold kickTrace
  dsimp only
  split
  · rfl
  · split <;> rfl

theorem Behind.of_ended {x : HeadId} {v t : State} (e : Ended (kickTrace x v) t) : Behind v t := by
  refine ⟨fun k => ?_, e.senses.trans (kickTrace_senses ..), e.plans.trans (kickTrace_plans ..), fun d set =>
    e.flagged ((kickTrace_worked (P := fun _ => True) x.mem_all v).frame.flagged set)⟩
  obtain ⟨trace, head, _⟩ := head_kickTrace x v k
  exact ⟨trace, (e.head k).trans head⟩

namespace Behind
variable {v t : State} (b : Behind v t)
include b

theorem sense (k : HeadId) : t.sense k = v.sense k := congrArg (Four.get · k) b.senses
theorem plan (k : HeadId) : t.plan k = v.plan k := congrArg (Four.get · k) b.plans

theorem haltedBy {why : Reason} {us : List HeadId} (halted : haltedBy why us v) : haltedBy why us t := by
  refine ⟨fun k mine => ?_, b.flagged _ halted.2⟩
  obtain ⟨trace, head⟩ := b.heads k
  rw [head, b.sense]
  exact halted.1 k mine

theorem pressEndedAt {smp : Sample} {st : HeadId → HeadState} {s : State} {h : HeadId} {o : Order}
    (ended : pressEndedAt smp st s h o v) : pressEndedAt smp st s h o t := by
  obtain ⟨still, disarmed, depth, rest⟩ := ended
  obtain ⟨trace, own⟩ := b.heads h
  refine ⟨fun k mine => ?_, by rw [b.sense]; exact disarmed, by rw [own]; exact depth, ?_⟩
  · obtain ⟨trace, head⟩ := b.heads k
    rw [head]
    exact still k mine
  · by_cases now : o.dwellTime = 0
    · rw [if_pos now] at rest ⊢
      obtain ⟨states, fixed, closing⟩ := rest
      refine ⟨fun k mine => ?_, by rw [own]; exact fixed, by rw [own]; exact closing⟩
      obtain ⟨trace, head⟩ := b.heads k
      rw [head]
      exact states k mine
    · rw [if_neg now] at rest ⊢
      obtain ⟨states, dwell⟩ := rest
      refine ⟨fun k mine => ?_, by rw [own]; exact dwell⟩
      obtain ⟨trace, head⟩ := b.heads k
      rw [head]
      exact states k mine

end Behind

end Sys2Proof.Machine

/-! ## The tests of a sample of PRESS -/

namespace Sys2Proof.Machine

/-! ### The seat condition (R64, R94) -/

theorem addHistory_reverse (before : List Sample) (smp : Sample) :
    (addHistory before smp).reverse = (smp :: before.reverse).take 16 := by
  rw [addHistory, List.reverse_drop, List.reverse_append, List.reverse_singleton, List.singleton_append]
  by_cases long : 16 ≤ (before ++ [smp]).length
  · rw [Nat.sub_sub_self long]
  · have all : (before ++ [smp]).length - 16 = 0 := by omega
    rw [all, Nat.sub_zero, List.take_of_length_le (by simp), List.take_of_length_le (by simp at long ⊢; omega)]

/-- The shoulder rise of a sample: with four samples and more before it, over the fourth of them. -/
theorem shoulderRise_iff (before : List Sample) (smp : Sample) (r : Int) :
    shoulderRiseOf (addHistory before smp) = some r ↔
      ∃ older f a b c, before = older ++ [f, a, b, c] ∧ smp.sum - f.sum = r := by
  have turned : ∀ {older : List Sample} {f a b c}, before = older ++ [f, a, b, c] ↔
      before.reverse = c :: b :: a :: f :: older.reverse := fun {older f a b c} => by
    rw [← List.reverse_inj, List.reverse_append]
    rfl
  unfold shoulderRiseOf
  rw [addHistory_reverse]
  rcases shape : before.reverse with _ | ⟨c, _ | ⟨b, _ | ⟨a, _ | ⟨f, older⟩⟩⟩⟩
  case cons.cons.cons.cons =>
    refine ⟨fun same => ⟨older.reverse, f, a, b, c, turned.mpr (by rw [shape, List.reverse_reverse]), Option.some.inj same⟩, ?_⟩
    rintro ⟨older', f', a', b', c', is, rise⟩
    have same := shape.symm.trans (turned.mp is)
    simp only [List.cons.injEq] at same
    obtain ⟨_, _, _, rfl, _⟩ := same
    exact congrArg some rise
  all_goals
    refine ⟨nofun, ?_⟩
    rintro ⟨older', f', a', b', c', is, _⟩
    have same := shape.symm.trans (turned.mp is)
    simp at same

theorem seatMet_iff (o : Order) (before : List Sample) (smp : Sample) :
    seatMet o (addHistory before smp) smp = true ↔ seatReached o before smp := by
  unfold seatMet seatReached
  cases o.seatMode
  case depth => exact decide_eq_true_iff
  case force => exact decide_eq_true_iff
  case shoulder =>
    dsimp only
    constructor
    · intro met
      cases rise : shoulderRiseOf (addHistory before smp) with
      | none => rw [rise] at met; cases met
      | some r =>
        rw [rise] at met
        obtain ⟨older, f, a, b, c, is, same⟩ := (shoulderRise_iff ..).mp rise
        exact ⟨older, f, a, b, c, is, same ▸ of_decide_eq_true met⟩
    · rintro ⟨older, f, a, b, c, is, rise⟩
      rw [(shoulderRise_iff ..).mpr ⟨older, f, a, b, c, is, rfl⟩]
      exact decide_eq_true rise

/-! ### The plan under the tests -/

theorem plan_modPlan {x : HeadId} {s : State} {p : Plan} (built : s.plan x = .built p) (f : Plan → Plan) :
    (modPlan x f s).plan x = .built (f p) := by
  simp only [modPlan, built]
  exact plan_setPlan_same ..

theorem pinHaltAsked_of {x : HeadId} {s : State} {p : Plan} (built : s.plan x = .built p) : s.pinHaltAsked x = p.asked := by
  simp only [State.pinHaltAsked, built]

theorem channelFaulted_of {s t : State} (same : ∀ k, (t.sense k).channels = (s.sense k).channels) :
    t.channelFaulted = s.channelFaulted := by
  funext h tine
  simp only [State.channelFaulted, State.health, same]

/-- Marks ask for nothing. -/
theorem markFaults_asked (faulted : HeadId → Nat → Bool) (p : Plan) : (p.markFaults faulted).asked = p.asked := by
  unfold Plan.markFaults
  split <;> rfl

/-! ### The tests in their order (R63, R64) -/

section
variable {x : HeadId} {s : State} {o : Order} {smp : Sample} {race : SampleRace} {before : List Sample}

/-- The sample ends the press. -/
def pressReached (o : Order) (before : List Sample) (smp : Sample) : Prop :=
  seatReached o before smp ∨ o.pressLimit ≤ smp.depth

theorem pressTests_reached (history : (s.sense x).history = addHistory before smp) (reached : pressReached o before smp) :
    ∃ seated, (seated = true ↔ seatReached o before smp) ∧ pressTests x o smp race s = endPress x o smp seated s := by
  refine ⟨seatMet o (addHistory before smp) smp, seatMet_iff .., ?_⟩
  unfold pressTests
  dsimp only
  rw [history, if_pos]
  rw [Bool.or_eq_true, seatMet_iff, decide_eq_true_eq]
  exact reached

theorem pressTests_short (history : (s.sense x).history = addHistory before smp) (short : ¬pressReached o before smp) :
    pressTests x o smp race s = if s.pinHaltAsked x && race.requestArrives then haltUnit .pinHalt x s else s := by
  unfold pressTests
  dsimp only
  rw [history, if_neg]
  rw [Bool.or_eq_true, seatMet_iff, decide_eq_true_eq]
  exact short

end

/-- A request arrives or does not. -/
theorem quiet_of {asked arrives : Bool} (calm : asked = false ∨ arrives = false) : (asked && arrives) = false := by
  rcases calm with rfl | rfl
  · rfl
  · exact Bool.and_false _

end Sys2Proof.Machine

/-! ## The press ends at a sample -/

namespace Sys2Proof.Machine

theorem leads_apart {s : State} {h : HeadId} (leads : s.leads h = true) : s.apart h := fun gang own =>
  h.companion_ne_primary (own.symm.trans (leads_iff.mp leads gang).symm)

section
variable {h : HeadId} {f : Firing} {rest : List Firing} {own companion : List Raw} {s : State}

/-- The block as a step-triggered sample's tests find it. -/
def seen (h : HeadId) (f : Firing) (rest : List Firing) (own companion : List Raw) (s : State) : State :=
  historyKept h (sampleOf s h f rest own companion) (sampled h f rest own companion s)

theorem seen_head (k : HeadId) : (seen h f rest own companion s).head k = s.head k := sampled_head k

theorem seen_plan (k : HeadId) : (seen h f rest own companion s).plan k = s.plan k :=
  congrArg (Four.get · k) sampled_kept.2.1

theorem seen_tools : (seen h f rest own companion s).tools = s.tools := sampled_kept.1

theorem seen_setup : (seen h f rest own companion s).setup = s.setup := sampled_setup

/-- The history holds the sample; what contact detection has found stands. -/
theorem seen_sense (leads : s.leads h = true) :
    ((seen h f rest own companion s).sense h).history = addHistory (s.sense h).history (sampleOf s h f rest own companion) ∧
    ((seen h f rest own companion s).sense h).contact = (s.sense h).contact ∧
    ((seen h f rest own companion s).sense h).triggerArmed = (s.sense h).triggerArmed := by
  obtain ⟨_, ⟨scanning, sense⟩, _⟩ := sampled_spec (leads_apart leads) f rest own companion
  rw [seen, historyKept, sense_modSense_same, sense]
  exact ⟨rfl, rfl, rfl⟩

/-- The marks after a sample go by the FAULTED channels at the end of its completion. -/
theorem seen_faulted (front : (s.sense h).firings = f :: rest) (kept : f.discard = false)
    (kind : f.kind = .step) (race : SampleRace) {t : State} (e : Ended (scanFinished h own companion race s) t) :
    t.channelFaulted = (seen h f rest own companion s).channelFaulted := by
  obtain ⟨measured, _⟩ := scanFinished_measured (own := own) (companion := companion) (race := race) front kept (by rw [kind]; exact nofun)
  refine (channelFaulted_of fun k => ?_).trans (channelFaulted_of (s := sampled h f rest own companion s) fun k => ?_).symm
  · rw [e.sense]
    exact (measured.readings k).1
  · rw [seen, historyKept, sense_modSense]
    split <;> rfl

/-- The state after the evaluator has taken a sample of PRESS. -/
def takenIn (h : HeadId) (o : Order) (smp : Sample) (u : State) : State := markFaulted h (takeSample h o smp u)

theorem head_addRows (x : HeadId) (o : Order) (smps : List Sample) (u : State) (k : HeadId) :
    ∃ trace, (addRows x o smps u).head k = { u.head k with trace := trace } := by
  by_cases own : k = x
  · subst own
    have head := head_modHead_same k (fun m => { m with trace := m.trace.acceptAll o (smps.map Sample.row) }) u
    exact ⟨_, head⟩
  · have head := head_modHead_other own (fun m => { m with trace := m.trace.acceptAll o (smps.map Sample.row) }) u
    exact ⟨_, head⟩

theorem head_takenIn (o : Order) (smp : Sample) (u : State) (k : HeadId) :
    ∃ trace, (takenIn h o smp u).head k = { u.head k with trace := trace } := by
  obtain ⟨trace, head⟩ := head_addRows h o [smp] (modPlan h (Plan.take u.setup.settleLimit h smp) u) k
  refine ⟨trace, ?_⟩
  rw [takenIn, State.head, markFaulted_heads, ← State.head, takeSample, head, State.head, modPlan_heads]
  rfl

theorem takenIn_sense (o : Order) (smp : Sample) (u : State) (k : HeadId) : (takenIn h o smp u).sense k = u.sense k :=
  congrArg (Four.get · k) ((markFaulted_senses ..).trans (takeSample_senses ..))

theorem takenIn_plan {u : State} {p : Plan} (built : u.plan h = .built p) (o : Order) (smp : Sample) :
    (takenIn h o smp u).plan h = .built ((p.take u.setup.settleLimit h smp).markFaults u.channelFaulted) := by
  have taken : (takeSample h o smp u).plan h = .built (p.take u.setup.settleLimit h smp) := plan_modPlan built _
  have faults : (takeSample h o smp u).channelFaulted = u.channelFaulted := channelFaulted_of fun k =>
    congrArg Sense.channels (congrArg (Four.get · k) (takeSample_senses h o smp u))
  rw [takenIn, markFaulted, plan_modPlan taken, faults]

/-- A sample of PRESS, once overforce and an earlier request are out of the way. -/
theorem pressSample_tests {o : Order} {smp : Sample} {race : SampleRace} {u : State} (calm : (u.pinHaltAsked h && race.requestArrives) = false)
    (weak : u.overforce h o smp = false) : pressSample h o smp race u = pressTests h o smp race (takenIn h o smp u) := by
  simp only [pressSample, calm, weak, Bool.false_eq_true, if_false, takenIn]

theorem pressSample_halts {o : Order} {smp : Sample} {race : SampleRace} {u : State} (asked : u.pinHaltAsked h = true)
    (arrives : race.requestArrives = true) : haltedBy .pinHalt (u.unit h) (pressSample h o smp race u) := by
  simp only [pressSample, asked, arrives, Bool.and_self, if_true]
  exact haltedBy_sample (press_before ..)

/-- Settles O31. -/
theorem pressEnds : Obligations.PressEnds := by
  intro s h own companion race f rest o smp p front kept kind order state leads built sample taken reached
  subst sample
  let u := seen h f rest own companion s
  let d := takenIn h o (sampleOf s h f rest own companion) u
  have runs : scanFinished h own companion race s = kickTrace h (pressSample h o (sampleOf s h f rest own companion) race u) := by
    rw [(scanFinished_sample front kept own companion race).1 kind]
    exact (stepSample_of (by rw [sampled_head]; exact order) _ race).2.2 (by rw [sampled_head]; exact state)
  have unit : ∀ {v : State}, (v.head h).gang = (s.head h).gang → v.unit h = s.unit h := unit_congr
  have planU : u.plan h = .built p := (seen_plan h).trans built
  have asked : u.pinHaltAsked h = p.asked := pinHaltAsked_of planU
  have answers : ∀ {P : State → Prop}, (∀ t, Behind (pressSample h o (sampleOf s h f rest own companion) race u) t →
      t.channelFaulted = u.channelFaulted → P t) → Answers (.scanComplete h own companion race) s P := fun holds =>
    .of_finish (u := scanFinished h own companion race s) rfl fun t e =>
      holds t (.of_ended (by rw [← runs]; exact e)) (seen_faulted front kept kind race e)
  refine ⟨fun asks arrives => answers fun t b _ => ?_, fun calm weak => ?_⟩
  · have halted := pressSample_halts (h := h) (o := o) (smp := sampleOf s h f rest own companion) (asked.trans asks) arrives
    rw [unit (by rw [seen_head])] at halted
    exact b.haltedBy halted
  have tests : pressSample h o (sampleOf s h f rest own companion) race u = pressTests h o (sampleOf s h f rest own companion) race d :=
    pressSample_tests (quiet_of (calm.imp_left asked.trans))
      (Bool.eq_false_iff.mpr fun strong => weak ((overforce_iff seen_tools h o _).mp strong))
  have heads : ∀ k, ∃ trace, d.head k = { s.head k with trace := trace } := fun k => by
    obtain ⟨trace, head⟩ := head_takenIn (h := h) o (sampleOf s h f rest own companion) u k
    exact ⟨trace, by rw [show d.head k = _ from head, seen_head]⟩
  obtain ⟨history, _, armed⟩ := seen_sense (f := f) (rest := rest) (own := own) (companion := companion) leads
  have historyD : (d.sense h).history = addHistory (s.sense h).history (sampleOf s h f rest own companion) := by
    rw [takenIn_sense]
    exact history
  have planD : d.plan h = .built (taken.markFaults u.channelFaulted) := by
    rw [takenIn_plan planU, seen_setup]
  have askedD : d.pinHaltAsked h = taken.asked := (pinHaltAsked_of planD).trans (markFaults_asked ..)
  have unitD : d.unit h = s.unit h := by
    obtain ⟨trace, head⟩ := heads h
    exact unit (by rw [head])
  refine ⟨fun ends => answers fun t b faults => ?_, fun short asks arrives => answers fun t b _ => ?_,
    fun short later => answers fun t b faults => ?_⟩
  · obtain ⟨seated, met, is⟩ := pressTests_reached (x := h) (o := o) (race := race) historyD ends
    obtain ⟨plan, handed, _⟩ := endPress_closes (o := o) planD (sampleOf s h f rest own companion) seated
    obtain ⟨traceT, headT⟩ := b.heads h
    have ended := endPress_ended (o := o) planD (by obtain ⟨_, head⟩ := heads h; rw [head]; exact order)
      (sampleOf s h f rest own companion) seated
    rw [tests, is] at b headT
    refine ⟨b.pressEndedAt ?_, seated, met, ?_⟩
    · have states : (fun k => (d.head k).state) = fun k => (s.head k).state := by
        funext k
        obtain ⟨_, head⟩ := heads k
        rw [head]
      rw [states] at ended
      obtain ⟨still, disarmed, depth, rest⟩ := ended
      rw [unitD] at still rest
      exact ⟨still, disarmed, depth, rest⟩
    · rw [faults]
      exact ⟨(b.plan h).trans plan, rfl, by rw [headT]; exact handed⟩
  · have halts := pressTests_short (x := h) (o := o) (race := race) historyD short
    rw [askedD, asks, arrives] at halts
    have halted := haltedBy_haltUnit .pinHalt h d
    rw [unitD] at halted
    exact b.haltedBy (by rw [tests, halts]; exact halted)
  · have stays := pressTests_short (x := h) (o := o) (race := race) historyD short
    rw [askedD, quiet_of later, if_neg Bool.false_ne_true] at stays
    rw [tests, stays] at b
    refine ⟨by rw [b.plan, planD, faults], by rw [b.sense, takenIn_sense]; exact armed, fun k => ?_⟩
    obtain ⟨trace, head⟩ := b.heads k
    obtain ⟨traceD, headD⟩ := heads k
    rw [head, headD]

end

end Sys2Proof.Machine

/-! ## A sample of SEEK -/

namespace Sys2Proof.Machine

/-! ### Contact detection (R93) -/

theorem contactTake_spec (c : Setup) (depth sum : Int) (x : Contact) :
    let t := x.take c depth sum
    (x.confirmed = true → t = x) ∧
    (x.confirmed = false →
      (c.contactThreshold ≤ sum →
        t.run = x.run + 1 ∧ t.candidate = (if x.run = 0 then some depth else x.candidate) ∧
        t.lastQualifying = some depth ∧ (t.confirmed = true ↔ x.run + 1 = c.contactCount)) ∧
      (sum < c.contactThreshold → x.run = 0 → t = x) ∧
      (sum < c.contactThreshold → 0 < x.run → ∀ last, x.lastQualifying = some last →
        t = if last + c.contactReset ≤ depth then
            { run := 0, candidate := none, lastQualifying := none, confirmed := false }
          else x)) := by
  refine ⟨fun done => if_pos done, fun going => ?_⟩
  have open_ : ¬x.confirmed = true := by rw [going]; exact Bool.false_ne_true
  refine ⟨fun strong => ?_, fun weak fresh => ?_, fun weak running last qualifying => ?_⟩
  · rw [Contact.take, if_neg open_, if_pos strong]
    exact ⟨rfl, rfl, rfl, decide_eq_true_iff⟩
  · rw [Contact.take, if_neg open_, if_neg (by omega), if_neg fun both => by omega]
  · have past : x.past c depth = true ↔ last + c.contactReset ≤ depth := by
      simp only [Contact.past, qualifying, decide_eq_true_eq]
    rw [Contact.take, if_neg open_, if_neg (by omega)]
    by_cases far : last + c.contactReset ≤ depth
    · rw [if_pos ⟨running, past.mpr far⟩, if_pos far, going]
    · rw [if_neg fun both => far (past.mp both.2), if_neg far]

/-! ### The tests of SEEK in their order (R62) -/

/-- The sample given to contact detection. -/
def contactTaken (x : HeadId) (smp : Sample) (s : State) : State :=
  modSense x (fun n => { n with contact := n.contact.take s.setup smp.depth smp.sum }) s

theorem seekSample_of {x : HeadId} {o : Order} {smp : Sample} {race : SampleRace} {s w : State} (taken : w = contactTaken x smp s) :
    (w.overforce x o smp = true → seekSample x o smp race s = haltUnit .overforce x w) ∧
    (w.overforce x o smp = false →
      ((w.sense x).contact.confirmed = true → seekSample x o smp race s = confirmContact x o smp race w) ∧
      ((w.sense x).contact.confirmed = false →
        (o.seekLimit ≤ smp.depth → seekSample x o smp race s = noContact x w) ∧
        (smp.depth < o.seekLimit → seekSample x o smp race s = w))) := by
  subst taken
  unfold seekSample contactTaken
  extract_lets a
  refine ⟨fun strong => if_pos strong, fun weak => ⟨fun found => ?_, fun lost => ⟨fun deep => ?_, fun short => ?_⟩⟩⟩
  · rw [weak, if_neg Bool.false_ne_true, if_pos found]
  · rw [weak, if_neg Bool.false_ne_true, lost, if_neg Bool.false_ne_true, if_pos deep]
  · rw [weak, if_neg Bool.false_ne_true, lost, if_neg Bool.false_ne_true, if_neg (by omega)]

/-- The block before the tests of a sample of SEEK, or of the one that enters it: `s` as the completion found it. -/
structure SeekReady (s : State) (h : HeadId) (o : Order) (smp : Sample) (found : Contact) (faulted : HeadId → Nat → Bool)
    (w : State) : Prop where
  states : ∀ k ∈ s.unit h, (w.head k).state = .seek
  unit : w.unit h = s.unit h
  order : (w.head h).current = some o
  mark : (w.head h).contactReached = (s.head h).contactReached
  history : (w.sense h).history = addHistory (s.sense h).history smp
  contact : (w.sense h).contact = found
  plan : ∀ p, s.plan h = .built p → w.plan h = .built (p.markFaults faulted)
  tools : w.tools = s.tools
  setup : w.setup = s.setup
  driven : (s.head h).state = .approach → ∀ k ∈ s.unit h,
    (w.head k).setpoint = BitVec.ofNat 12 (setpointFor o.seekSpeed (s.setup.fullScale.get h)) ∧
    (w.head k).direction = .down ∧ (w.head k).brake = false

section
variable {h : HeadId} {f : Firing} {rest : List Firing} {own companion : List Raw} {s : State} {o : Order}

/-- The block before the tests of a sample taken in SEEK. -/
def atSeek (h : HeadId) (f : Firing) (rest : List Firing) (own companion : List Raw) (s : State) : State :=
  markFaulted h (seen h f rest own companion s)

/-- The same of one that enters SEEK. -/
def intoSeek (h : HeadId) (f : Firing) (rest : List Firing) (own companion : List Raw) (s : State) : State :=
  modSense h (fun n => { n with contact := Contact.cleared }) (enterState .seek h (atSeek h f rest own companion s))

theorem atSeek_head (k : HeadId) : (atSeek h f rest own companion s).head k = s.head k :=
  (congrArg (Four.get · k) (markFaulted_heads ..)).trans (seen_head k)

theorem atSeek_sense (k : HeadId) : (atSeek h f rest own companion s).sense k = (seen h f rest own companion s).sense k :=
  congrArg (Four.get · k) (markFaulted_senses ..)

theorem atSeek_plan {p : Plan} (built : s.plan h = .built p) : (atSeek h f rest own companion s).plan h =
    .built (p.markFaults (seen h f rest own companion s).channelFaulted) :=
  plan_modPlan ((seen_plan h).trans built) _

theorem atSeek_ready (aligned : GangsAligned s) (leads : s.leads h = true) (order : (s.head h).current = some o)
    (state : (s.head h).state = .seek) :
    SeekReady s h o (sampleOf s h f rest own companion)
      ((s.sense h).contact.take s.setup (sampleOf s h f rest own companion).depth (sampleOf s h f rest own companion).sum)
      (seen h f rest own companion s).channelFaulted
      (contactTaken h (sampleOf s h f rest own companion) (atSeek h f rest own companion s)) := by
  obtain ⟨history, contact, _⟩ := seen_sense (f := f) (rest := rest) (own := own) (companion := companion) leads
  have head : ∀ k, (contactTaken h (sampleOf s h f rest own companion) (atSeek h f rest own companion s)).head k = s.head k :=
    fun k => atSeek_head k
  have setup : (atSeek h f rest own companion s).setup = s.setup := (markFaulted_setup ..).trans seen_setup
  refine ⟨fun k mine => ?_, unit_congr (by rw [head]), by rw [head]; exact order, by rw [head], ?_, ?_,
    fun p built => atSeek_plan built, (modPlan_tools ..).trans seen_tools, setup, fun other => ?_⟩
  · rw [head, state_of_mem_unit aligned mine]
    exact state
  · rw [contactTaken, sense_modSense_same, atSeek_sense]
    exact history
  · rw [contactTaken, sense_modSense_same, atSeek_sense, contact, setup]
  · rw [state] at other
    cases other

theorem intoSeek_ready (leads : s.leads h = true) (order : (s.head h).current = some o) :
    SeekReady s h o (sampleOf s h f rest own companion)
      (Contact.cleared.take s.setup (sampleOf s h f rest own companion).depth (sampleOf s h f rest own companion).sum)
      (seen h f rest own companion s).channelFaulted
      (contactTaken h (sampleOf s h f rest own companion) (intoSeek h f rest own companion s)) := by
  obtain ⟨history, contact, _⟩ := seen_sense (f := f) (rest := rest) (own := own) (companion := companion) leads
  have setupA : (atSeek h f rest own companion s).setup = s.setup := (markFaulted_setup ..).trans seen_setup
  have unitA : (atSeek h f rest own companion s).unit h = s.unit h := unit_congr (by rw [atSeek_head])
  have setup : (intoSeek h f rest own companion s).setup = s.setup := (enterState_setup ..).trans setupA
  have head : ∀ k ∈ s.unit h, (contactTaken h (sampleOf s h f rest own companion) (intoSeek h f rest own companion s)).head k =
      ({ s.head k with state := .seek } : Head).drive (Drive.moving o.seekSpeed (s.setup.fullScale.get h) .down) := fun k mine => by
    have entered := head_enterState .seek h (atSeek h f rest own companion s) k
    rw [if_pos (by rw [unitA]; exact mine), atSeek_head, atSeek_head, order, setupA] at entered
    exact entered
  have self := mem_unit_self s h
  have sense : (enterState .seek h (atSeek h f rest own companion s)).sense h = (seen h f rest own companion s).sense h :=
    (congrArg (Four.get · h) (enterState_senses ..)).trans (atSeek_sense h)
  refine ⟨fun k mine => by rw [head k mine]; rfl, unit_congr (by rw [head h self]; rfl), by rw [head h self]; exact order,
    by rw [head h self]; rfl, ?_, ?_, fun p built => ?_, ?_, setup, fun _ k mine => by rw [head k mine]; exact ⟨rfl, rfl, rfl⟩⟩
  · rw [contactTaken, sense_modSense_same, intoSeek, sense_modSense_same, sense]
    exact history
  · rw [contactTaken, sense_modSense_same, setup, intoSeek, sense_modSense_same]
  · exact (congrArg (Four.get · h) (enterState_plans ..)).trans (atSeek_plan built)
  · exact (enterState_press .seek h (atSeek h f rest own companion s)).stands.1.1.trans ((modPlan_tools ..).trans seen_tools)

end

end Sys2Proof.Machine

/-! ## Contact confirmed -/

namespace Sys2Proof.Machine

/-! ### The replay (R24, R31) -/

theorem replay_eq_foldl (settle : Nat) (x : HeadId) : ∀ (smps : List Sample) (p : Plan),
    p.replay settle x smps = smps.foldl (fun q smp => q.take settle x smp) p
  | [], _ => rfl
  | smp :: rest, p => replay_eq_foldl settle x rest (p.take settle x smp)

theorem replayed_eq (settle : Nat) (x : HeadId) (dc : Int) (smps : List Sample) (p : Plan) :
    replayed settle x dc smps p = (p.goLive dc).replay settle x smps := (replay_eq_foldl ..).symm

/-- Once asked for, PIN_HALT stays asked for. -/
theorem replay_asked {settle : Nat} {x : HeadId} : ∀ {smps : List Sample} {p : Plan}, p.asked = true →
    (p.replay settle x smps).asked = true
  | [], _, asked => asked
  | smp :: rest, p, asked => replay_asked (smps := rest) (p := p.take settle x smp) (by
      show (p.asked || _) = true
      rw [asked, Bool.true_or])

theorem replay_append (settle : Nat) (x : HeadId) (a b : List Sample) (p : Plan) :
    p.replay settle x (a ++ b) = (p.replay settle x a).replay settle x b := by
  simp only [replay_eq_foldl, List.foldl_append]

/-- An older replayed sample that asks has the whole replay asked. -/
theorem asked_of_earlierAsk {settle n : Nat} {x : HeadId} {smps : List Sample} {p : Plan}
    (earlier : earlierAsk settle x smps (.built p) = some n) : (p.replay settle x smps).asked = true := by
  have asked : (p.replay settle x (smps.take n)).asked = true :=
    List.find?_some (p := fun n => (p.replay settle x (smps.take n)).asked) earlier
  rw [← List.take_append_drop n smps, replay_append]
  exact replay_asked asked

/-! ### PRESS entered (R62) -/

section
variable {x : HeadId} {o : Order} {smp : Sample} {race : SampleRace} {w : State}

/-- The block as contact is confirmed, before the replay. -/
def contactMade (x : HeadId) (dc : Int) (w : State) : State :=
  modPlan x (fun p => p.goLive dc)
    (enterState .press x (modHead x (fun m => { m with contactReached := true, contactDepth := some dc }) w))

/-- Contact as the sample sees it. -/
def foundDepth (x : HeadId) (smp : Sample) (w : State) : Int := (w.sense x).contact.candidate.getD smp.depth

/-- The samples replayed. -/
def replaySamples (x : HeadId) (smp : Sample) (w : State) : List Sample :=
  replayOf (foundDepth x smp w) (w.sense x).history

/-- The block after the replay of `smps`. -/
def replayMade (x : HeadId) (o : Order) (smp : Sample) (smps : List Sample) (w : State) : State :=
  takeReplay x o smps (contactMade x (foundDepth x smp w) w)

theorem contactMade_setup (dc : Int) : (contactMade x dc w).setup = w.setup :=
  ((modPlan_worked (P := fun _ => True) (us := HeadId.all) x.mem_all _ _).frame.setup).trans (enterState_setup ..)

theorem confirmContact_whole (calm : earlierAsk w.setup.settleLimit x (replaySamples x smp w)
      ((contactMade x (foundDepth x smp w) w).plan x) = none ∨ race.requestArrives = false) :
    confirmContact x o smp race w = pressTests x o smp race (replayMade x o smp (replaySamples x smp w) w) := by
  rw [← contactMade_setup] at calm
  unfold confirmContact
  extract_lets dc replay a b c
  split
  · rfl
  · next n earlier =>
    rcases calm with same | late
    · cases earlier.symm.trans same
    · rw [late, if_neg Bool.false_ne_true]
      rfl

theorem confirmContact_cut {n : Nat} (earlier : earlierAsk w.setup.settleLimit x (replaySamples x smp w)
      ((contactMade x (foundDepth x smp w) w).plan x) = some n) (arrives : race.requestArrives = true) :
    ∃ smps choices, confirmContact x o smp race w =
      haltUnit .pinHalt x (takeReplay x o smps { contactMade x (foundDepth x smp w) w with choices := choices }) := by
  rw [← contactMade_setup] at earlier
  unfold confirmContact
  extract_lets dc replay a b c
  split
  · next open_ => cases earlier.symm.trans open_
  · next n _ =>
    rw [arrives, if_pos rfl]
    exact ⟨_, _, rfl⟩

/-! ### What PRESS is entered with -/

theorem contactMade_unit (dc : Int) : (contactMade x dc w).unit x = w.unit x := by
  have marked := head_modHead_same x (fun m => { m with contactReached := true, contactDepth := some dc }) w
  refine unit_congr ?_
  rw [contactMade, State.head, modPlan_heads, ← State.head, head_enterState, if_pos (mem_unit_self _ _), marked]
  rfl

/-- A head of the unit in PRESS with its drive; the marks of the stroke are the lead's. -/
theorem head_contactMade (order : (w.head x).current = some o) (dc : Int) {k : HeadId} (mine : k ∈ w.unit x) :
    let m := (contactMade x dc w).head k
    m.state = .press ∧ m.direction = .down ∧ m.brake = false ∧
    m.setpoint = BitVec.ofNat 12 (setpointFor o.pressSpeed (w.setup.fullScale.get x)) ∧
    (k = x → m.current = some o ∧ m.contactReached = true ∧ m.contactDepth = some dc) := by
  let a := modHead x (fun m => { m with contactReached := true, contactDepth := some dc }) w
  have marked : a.head x = { w.head x with contactReached := true, contactDepth := some dc } :=
    head_modHead_same x (fun m => { m with contactReached := true, contactDepth := some dc }) w
  have unit : a.unit x = w.unit x := unit_congr (by rw [marked])
  have entered := head_enterState .press x a k
  rw [if_pos (by rw [unit]; exact mine), marked, order] at entered
  have head : (contactMade x dc w).head k = _ := (congrArg (Four.get · k) (modPlan_heads ..)).trans entered
  rw [head]
  refine ⟨rfl, rfl, rfl, rfl, fun own => ?_⟩
  subst own
  rw [marked]
  exact ⟨order, rfl, rfl⟩

theorem contactMade_plan {p : Plan} (built : w.plan x = .built p) (dc : Int) :
    (contactMade x dc w).plan x = .built (p.goLive dc) := by
  refine plan_modPlan ?_ _
  rw [State.plan, enterState_plans, modHead_plans]
  exact built

theorem contactMade_sense (dc : Int) (k : HeadId) : (contactMade x dc w).sense k = w.sense k :=
  congrArg (Four.get · k) ((modPlan_senses ..).trans (enterState_senses ..))

theorem head_takeReplay (x : HeadId) (o : Order) (smps : List Sample) (u : State) (k : HeadId) :
    ∃ trace, (takeReplay x o smps u).head k = { u.head k with trace := trace } := by
  obtain ⟨trace, head⟩ := head_addRows x o smps (modPlan x (fun p => p.replay u.setup.settleLimit x smps) u) k
  refine ⟨trace, ?_⟩
  rw [takeReplay, head, State.head, modPlan_heads]
  rfl

theorem takeReplay_plan {u : State} {p : Plan} (built : u.plan x = .built p) (o : Order) (smps : List Sample) :
    (takeReplay x o smps u).plan x = .built (p.replay u.setup.settleLimit x smps) := plan_modPlan built _

/-! ### The stroke after contact -/

/-- Contact reached at `dc`, and the unit in PRESS or beyond. -/
structure Contacted (us : List HeadId) (x : HeadId) (dc : Int) (t : State) : Prop where
  mark : (t.head x).contactReached = true
  depth : (t.head x).contactDepth = some dc
  states : ∀ k ∈ us, (t.head k).state = .press ∨ (t.head k).state = .dwell ∨ (t.head k).state = .halted

theorem Contacted.of_traced {us : List HeadId} {dc : Int} {s t : State} (there : Contacted us x dc s)
    (heads : ∀ k, ∃ trace, t.head k = { s.head k with trace := trace }) : Contacted us x dc t := by
  obtain ⟨_, own⟩ := heads x
  refine ⟨by rw [own]; exact there.mark, by rw [own]; exact there.depth, fun k mine => ?_⟩
  obtain ⟨_, head⟩ := heads k
  rw [head]
  exact there.states k mine

theorem Contacted.haltUnit {dc : Int} {s : State} (there : Contacted (s.unit x) x dc s) (why : Reason) :
    Contacted (s.unit x) x dc (haltUnit why x s) := by
  obtain ⟨_, _, _, _, own⟩ := head_haltUnit why x s (mem_unit_self s x)
  refine ⟨by rw [own]; exact there.mark, by rw [own]; exact there.depth, fun k mine => ?_⟩
  obtain ⟨_, _, _, _, head⟩ := head_haltUnit why x s mine
  rw [head]
  exact .inr (.inr rfl)

theorem Contacted.endPress {dc : Int} {s : State} (there : Contacted (s.unit x) x dc s) (o : Order) (smp : Sample)
    (seated : Bool) : Contacted (s.unit x) x dc (endPress x o smp seated s) := by
  obtain ⟨_, _, mark, depth⟩ := head_endPress (o := o) smp seated (mem_unit_self s x)
  refine ⟨mark.trans there.mark, depth.trans there.depth, fun k mine => ?_⟩
  obtain ⟨_, state, _⟩ := head_endPress (o := o) smp seated mine
  rw [state]
  split
  · exact there.states k mine
  · exact .inr (.inl rfl)

theorem Contacted.pressTests {dc : Int} {s : State} (there : Contacted (s.unit x) x dc s) (o : Order) (smp : Sample)
    (race : SampleRace) : Contacted (s.unit x) x dc (pressTests x o smp race s) := by
  unfold Machine.pressTests
  dsimp only
  split
  · exact there.endPress ..
  · split
    · exact there.haltUnit ..
    · exact there

/-- The unit as the replay leaves it. -/
theorem contacted_takeReplay (order : (w.head x).current = some o) (dc : Int) (smps : List Sample) (choices : Nat) :
    let d := takeReplay x o smps { contactMade x dc w with choices := choices }
    d.unit x = w.unit x ∧ Contacted (w.unit x) x dc d := by
  intro d
  have heads := head_takeReplay x o smps { contactMade x dc w with choices := choices }
  have made : Contacted (w.unit x) x dc { contactMade x dc w with choices := choices } := by
    obtain ⟨_, _, _, _, marks⟩ := head_contactMade order dc (mem_unit_self w x)
    obtain ⟨_, mark, depth⟩ := marks rfl
    exact ⟨mark, depth, fun k mine => .inl (head_contactMade order dc mine).1⟩
  obtain ⟨_, own⟩ := heads x
  exact ⟨(unit_congr (by rw [own]; rfl)).trans (contactMade_unit dc), made.of_traced heads⟩

theorem contacted_confirmContact (order : (w.head x).current = some o) :
    Contacted (w.unit x) x (foundDepth x smp w) (confirmContact x o smp race w) := by
  have tests : Contacted (w.unit x) x (foundDepth x smp w)
      (pressTests x o smp race (replayMade x o smp (replaySamples x smp w) w)) := by
    obtain ⟨unit, there⟩ := contacted_takeReplay order (foundDepth x smp w) (replaySamples x smp w)
      (contactMade x (foundDepth x smp w) w).choices
    rw [← unit] at there ⊢
    exact there.pressTests ..
  cases earlier : earlierAsk w.setup.settleLimit x (replaySamples x smp w) ((contactMade x (foundDepth x smp w) w).plan x) with
  | none =>
    rw [confirmContact_whole (.inl earlier)]
    exact tests
  | some n =>
    cases arrives : race.requestArrives
    · rw [confirmContact_whole (.inr arrives)]
      exact tests
    · obtain ⟨smps, choices, halts⟩ := confirmContact_cut (o := o) earlier arrives
      obtain ⟨unit, there⟩ := contacted_takeReplay order (foundDepth x smp w) smps choices
      rw [halts, ← unit]
      rw [← unit] at there
      exact there.haltUnit ..

end

end Sys2Proof.Machine

/-! ## SEEK ends in contact or at its limit -/

namespace Sys2Proof.Machine

section
variable {h : HeadId} {o : Order} {smp : Sample} {race : SampleRace} {s w : State} {found : Contact}
  {faulted : HeadId → Nat → Bool}

/-- A press end is told of the unit alone. -/
theorem pressEndedAt_congr {x : HeadId} {a b t : State} {st st' : HeadId → HeadState} (unit : a.unit x = b.unit x)
    (states : ∀ k ∈ a.unit x, st k = st' k) (ended : pressEndedAt smp st a x o t) : pressEndedAt smp st' b x o t := by
  obtain ⟨still, disarmed, depth, rest⟩ := ended
  rw [unit] at still
  refine ⟨still, disarmed, depth, ?_⟩
  by_cases now : o.dwellTime = 0
  · rw [if_pos now] at rest ⊢
    obtain ⟨stand, results⟩ := rest
    exact ⟨fun k mine => (stand k (unit ▸ mine)).trans (states k (unit ▸ mine)), results⟩
  · rw [if_neg now] at rest ⊢
    rw [unit] at rest
    exact rest

/-- The depth contact is fixed at. -/
def depthOf (found : Contact) (smp : Sample) : Int := found.candidate.getD smp.depth

/-- The plan after the replay. -/
def planReplayed (s : State) (h : HeadId) (found : Contact) (smp : Sample) (p : Plan) : Plan :=
  replayed s.setup.settleLimit h (depthOf found smp)
    (replayOf (depthOf found smp) (addHistory (s.sense h).history smp)) p

theorem replayMade_ready (ready : SeekReady s h o smp found faulted w) {p : Plan} (built : s.plan h = .built p) :
    let d := replayMade h o smp (replaySamples h smp w) w
    d.plan h = .built (planReplayed s h found smp (p.markFaults faulted)) ∧
    (d.sense h).history = addHistory (s.sense h).history smp ∧ d.unit h = s.unit h ∧ (d.head h).current = some o ∧
    ∀ k ∈ s.unit h, (d.head k).state = .press ∧ (d.head k).direction = .down ∧ (d.head k).brake = false ∧
      (d.head k).setpoint = BitVec.ofNat 12 (setpointFor o.pressSpeed (s.setup.fullScale.get h)) := by
  intro d
  have depth : foundDepth h smp w = depthOf found smp := by rw [foundDepth, ready.contact, depthOf]
  have samples : replaySamples h smp w = replayOf (depthOf found smp) (addHistory (s.sense h).history smp) := by
    rw [replaySamples, depth, ready.history]
  have heads := head_takeReplay h o (replaySamples h smp w) (contactMade h (foundDepth h smp w) w)
  have made := fun k mine => head_contactMade ready.order (foundDepth h smp w) (k := k) mine
  rw [ready.unit, ready.setup] at made
  have self := mem_unit_self s h
  refine ⟨?_, ?_, ?_, ?_, fun k mine => ?_⟩
  · have plan := takeReplay_plan (contactMade_plan (ready.plan p built) (foundDepth h smp w)) o (replaySamples h smp w)
    rw [contactMade_setup, ready.setup, depth, samples, ← replayed_eq] at plan
    rw [show d = takeReplay h o (replaySamples h smp w) (contactMade h (foundDepth h smp w) w) from rfl, depth, samples]
    exact plan
  · rw [show d.sense h = (contactMade h (foundDepth h smp w) w).sense h from
      congrArg (Four.get · h) (takeReplay_senses ..), contactMade_sense]
    exact ready.history
  · obtain ⟨_, own⟩ := heads h
    exact (unit_congr (s := contactMade h (foundDepth h smp w) w) (by rw [show d.head h = _ from own])).trans
      ((contactMade_unit _).trans ready.unit)
  · obtain ⟨_, own⟩ := heads h
    obtain ⟨_, _, _, _, marks⟩ := made h self
    rw [show d.head h = _ from own]
    exact (marks rfl).1
  · obtain ⟨_, head⟩ := heads k
    obtain ⟨press, down, released, setpoint, _⟩ := made k mine
    rw [show d.head k = _ from head]
    exact ⟨press, down, released, setpoint⟩

/-- What the tests after the replay come to. -/
theorem replayTests_spec (ready : SeekReady s h o smp found faulted w) {p : Plan} (built : s.plan h = .built p) :
    let d := replayMade h o smp (replaySamples h smp w) w
    let q := planReplayed s h found smp (p.markFaults faulted)
    let v := pressTests h o smp race d
    (pressReached o (s.sense h).history smp → pressEndedAt smp (fun _ => .press) s h o v) ∧
    (¬pressReached o (s.sense h).history smp →
      (q.asked = false ∨ race.requestArrives = false → v = d) ∧
      (q.asked = true → race.requestArrives = true → haltedBy .pinHalt (s.unit h) v)) := by
  intro d q v
  obtain ⟨plan, history, unit, order, heads⟩ := replayMade_ready ready built
  refine ⟨fun reached => ?_, fun short => ?_⟩
  · obtain ⟨seated, _, ends⟩ := pressTests_reached (x := h) (o := o) (race := race) history reached
    rw [show v = _ from ends]
    exact pressEndedAt_congr unit (fun k mine => (heads k (unit ▸ mine)).1) (endPress_ended plan order smp seated)
  · have tests := pressTests_short (x := h) (o := o) (race := race) history short
    rw [pinHaltAsked_of plan] at tests
    refine ⟨fun calm => tests.trans ?_, fun asked arrives => ?_⟩
    · rw [show (planReplayed s h found smp (p.markFaults faulted)).asked = q.asked from rfl, quiet_of calm,
        if_neg Bool.false_ne_true]
    · rw [show v = _ from tests, show (planReplayed s h found smp (p.markFaults faulted)).asked = true from asked,
        arrives, if_pos (Bool.and_self true), ← unit]
      exact haltedBy_haltUnit ..

theorem confirmContact_spec (ready : SeekReady s h o smp found faulted w) {p : Plan} (built : s.plan h = .built p) :
    let d := replayMade h o smp (replaySamples h smp w) w
    let q := planReplayed s h found smp (p.markFaults faulted)
    let v := confirmContact h o smp race w
    (q.asked = false ∨ race.requestArrives = false → pressReached o (s.sense h).history smp →
      pressEndedAt smp (fun _ => .press) s h o v) ∧
    (q.asked = false ∨ race.requestArrives = false → ¬pressReached o (s.sense h).history smp → v = d) ∧
    (q.asked = true → race.requestArrives = true → haltedBy .pinHalt (s.unit h) v ∨
      pressReached o (s.sense h).history smp ∧ pressEndedAt smp (fun _ => .press) s h o v) := by
  intro d q v
  obtain ⟨ends, goes⟩ := replayTests_spec (race := race) ready built
  obtain ⟨plan, _⟩ := replayMade_ready ready built
  have made := contactMade_plan (ready.plan p built) (foundDepth h smp w)
  have whole : ∀ n, earlierAsk w.setup.settleLimit h (replaySamples h smp w) ((contactMade h (foundDepth h smp w) w).plan h) =
      some n → q.asked = true := fun n earlier => by
    rw [made] at earlier
    have asked := asked_of_earlierAsk earlier
    have same := plan.symm.trans (takeReplay_plan made o (replaySamples h smp w))
    rw [contactMade_setup, PlanState.built.injEq] at same
    exact (congrArg Plan.asked same).trans asked
  have calmly : q.asked = false ∨ race.requestArrives = false → v = pressTests h o smp race d := fun calm => by
    refine confirmContact_whole ?_
    rcases calm with quiet | late
    · refine .inl (Option.eq_none_iff_forall_ne_some.mpr fun n earlier => ?_)
      rw [whole n earlier] at quiet
      cases quiet
    · exact .inr late
  refine ⟨fun calm reached => ?_, fun calm short => (calmly calm).trans ((goes short).1 calm), fun asked arrives => ?_⟩
  · rw [calmly calm]
    exact ends reached
  · cases earlier : earlierAsk w.setup.settleLimit h (replaySamples h smp w) ((contactMade h (foundDepth h smp w) w).plan h) with
    | none =>
      rw [show v = pressTests h o smp race d from confirmContact_whole (.inl earlier)]
      by_cases reached : pressReached o (s.sense h).history smp
      · exact .inr ⟨reached, ends reached⟩
      · exact .inl ((goes reached).2 asked arrives)
    | some n =>
      obtain ⟨smps, choices, halts⟩ := confirmContact_cut (o := o) earlier arrives
      obtain ⟨unit, _⟩ := contacted_takeReplay ready.order (foundDepth h smp w) smps choices
      rw [ready.unit] at unit
      refine .inl ?_
      rw [show v = _ from halts, ← unit]
      exact haltedBy_haltUnit ..

/-! ### The seek limit (R44, R62) -/

theorem noContact_spec (ready : SeekReady s h o smp found faulted w) (built : ∃ p, s.plan h = .built p) :
    let v := noContact h w
    (∀ k ∈ s.unit h, (v.head k).state = .seek ∧ (v.head k).setpoint = 0 ∧ (v.head k).brake = false ∧
      (v.head k).guardArmed = false) ∧
    (v.sense h).triggerArmed = false ∧ (v.head h).outcomeFixed = true ∧
    ∃ c, (v.head h).closing = some c ∧ c.order = o ∧ c.result.outcome = .fail ∧ c.result.reason = .noContact ∧
      c.stroke = true := by
  obtain ⟨p, plan⟩ := built
  intro v
  let r := (p.markFaults faulted).noContact.2
  let a := modHead h (fun m => { m with handed := some r }) (setPlan h (.built (p.markFaults faulted).noContact.1) w)
  let b := stopRam h a
  have is : v = beginResults h b := by
    simp only [v, noContact, ready.plan p plan]
    rfl
  have handed : ∀ k, ∃ handed, a.head k = { w.head k with handed := handed } := fun k => by
    by_cases own : k = h
    · subst own
      have head := head_modHead_same k (fun m => { m with handed := some r }) (setPlan k (.built (p.markFaults faulted).noContact.1) w)
      exact ⟨_, head⟩
    · have head := head_modHead_other own (fun m => { m with handed := some r }) (setPlan h (.built (p.markFaults faulted).noContact.1) w)
      exact ⟨_, head⟩
  have own : a.head h = { w.head h with handed := some r } :=
    head_modHead_same h (fun m => { m with handed := some r }) (setPlan h (.built (p.markFaults faulted).noContact.1) w)
  have unit : a.unit h = s.unit h := (unit_congr (by rw [own])).trans ready.unit
  have stopped : ∀ k ∈ s.unit h, b.head k = ((a.head k).drive Drive.held).disarm := fun k mine =>
    (head_stopRam h a k).trans (if_pos (by rw [unit]; exact mine))
  have stopped' := stopped h (mem_unit_self s h)
  rw [own] at stopped'
  have results := beginResults_of (x := h) (s := b) (o := o) (by rw [stopped']; exact ready.order)
  obtain ⟨stage, head⟩ := head_beginClosing h (resultsClosing o (b.head h)) b h
  rw [if_pos rfl, ← results, ← is] at head
  refine ⟨fun k mine => ?_, ?_, by rw [head], _, by rw [head], rfl, ?_, ?_, rfl⟩
  · obtain ⟨_, _, results⟩ := head_beginResults h b k
    obtain ⟨_, marked⟩ := handed k
    rw [is, results, stopped k mine, marked]
    exact ⟨ready.states k mine, rfl, rfl, rfl⟩
  · rw [is, State.sense, beginResults_senses, ← State.sense, sense_stopRam, if_pos rfl]
    rfl
  · rw [resultsClosing, stopped']
    rfl
  · rw [resultsClosing, stopped']
    rfl

/-! ### The obligation -/

/-- A sample of SEEK, or of APPROACH at its end, is judged in SEEK. -/
theorem seekSample_reached {own companion : List Raw} {f : Firing} {rest : List Firing} {before : Contact}
    (aligned : GangsAligned s) (front : (s.sense h).firings = f :: rest) (kept : f.discard = false) (kind : f.kind = .step)
    (order : (s.head h).current = some o) (leads : s.leads h = true) (sample : smp = sampleOf s h f rest own companion)
    (enters : (s.head h).state = .seek ∧ before = (s.sense h).contact ∨
      (s.head h).state = .approach ∧ o.approachEnd ≤ smp.depth ∧
        before = { run := 0, candidate := none, lastQualifying := none, confirmed := false }) :
    ∃ v, scanFinished h own companion race s = kickTrace h (seekSample h o smp race v) ∧
      SeekReady s h o smp (before.take s.setup smp.depth smp.sum) (seen h f rest own companion s).channelFaulted
        (contactTaken h smp v) := by
  subst sample
  have step := (scanFinished_sample front kept own companion race).1 kind
  have order' : ((sampled h f rest own companion s).head h).current = some o := by rw [sampled_head]; exact order
  obtain ⟨approach, seek, _⟩ := stepSample_of order' (sampleOf s h f rest own companion) race
  rw [sampled_head] at approach seek
  rcases enters with ⟨state, rfl⟩ | ⟨state, deep, rfl⟩
  · exact ⟨atSeek h f rest own companion s, step.trans (seek state), atSeek_ready aligned leads order state⟩
  · refine ⟨intoSeek h f rest own companion s, (step.trans (approach state)).trans ?_, intoSeek_ready leads order⟩
    rw [approachSample, if_pos deep]
    rfl

/-- Settles O30. -/
theorem seekEndsInContactOrAtItsLimit : Obligations.SeekEndsInContactOrAtItsLimit := by
  refine ⟨contactTake_spec, fun s h own companion race f rest o smp before found aligned front kept kind order leads sample enters
    finds => ?_⟩
  subst finds
  obtain ⟨v, runs, ready⟩ := seekSample_reached (race := race) aligned front kept kind order leads sample enters
  obtain ⟨strongly, weakly⟩ := seekSample_of (x := h) (o := o) (smp := smp) (race := race) (s := v) rfl
  have strongIff := overforce_iff ready.tools h o smp
  have calm : ¬tooStrong s h o smp → (contactTaken h smp v).overforce h o smp = false := fun weak =>
    Bool.eq_false_iff.mpr fun strong => weak (strongIff.mp strong)
  have answers : ∀ {P : State → Prop}, (∀ t, Behind (seekSample h o smp race v) t →
      t.channelFaulted = (seen h f rest own companion s).channelFaulted → P t) →
      Answers (.scanComplete h own companion race) s P := fun holds =>
    .of_finish (u := scanFinished h own companion race s) rfl fun t e =>
      holds t (.of_ended (by rw [← runs]; exact e)) (seen_faulted front kept kind race e)
  refine ⟨fun strong => answers fun t b _ => ?_, fun weak confirmed => answers fun t b faults => ?_,
    fun weak lost deep built => answers fun t b _ => ?_, fun weak lost short => answers fun t b _ => ?_⟩
  · rw [strongly (strongIff.mpr strong)] at b
    have halted := haltedBy_haltUnit .overforce h (contactTaken h smp v)
    rw [ready.unit] at halted
    exact b.haltedBy halted
  · rw [(weakly (calm weak)).1 (by rw [ready.contact]; exact confirmed)] at b
    have there := contacted_confirmContact (smp := smp) (race := race) ready.order
    rw [ready.unit, foundDepth, ready.contact] at there
    obtain ⟨mark, depth, states⟩ := there.of_traced b.heads
    refine ⟨mark, depth, states, fun p q built is => ?_⟩
    rw [faults] at is
    subst is
    obtain ⟨ends, goes, asks⟩ := confirmContact_spec (race := race) ready built
    obtain ⟨plan, _, _, _, heads⟩ := replayMade_ready ready built
    refine ⟨fun calm reached => b.pressEndedAt (ends calm reached), fun calm short => ?_, fun asked arrives => ?_⟩
    · rw [goes calm short] at b
      refine ⟨(b.plan h).trans plan, fun k mine => ?_⟩
      obtain ⟨_, head⟩ := b.heads k
      rw [head]
      exact heads k mine
    · exact (asks asked arrives).imp b.haltedBy fun ⟨reached, ended⟩ => ⟨reached, b.pressEndedAt ended⟩
  · rw [((weakly (calm weak)).2 (by rw [ready.contact]; exact lost)).1 deep] at b
    obtain ⟨still, disarmed, fixed, closing⟩ := noContact_spec ready built
    obtain ⟨_, own⟩ := b.heads h
    refine ⟨fun k mine => ?_, by rw [b.sense]; exact disarmed, by rw [own]; exact fixed, by rw [own]; exact closing⟩
    obtain ⟨_, head⟩ := b.heads k
    rw [head]
    exact still k mine
  · rw [((weakly (calm weak)).2 (by rw [ready.contact]; exact lost)).2 short] at b
    obtain ⟨_, own⟩ := b.heads h
    refine ⟨fun k mine => ?_, by rw [b.sense]; exact ready.contact, by rw [own]; exact ready.mark, fun state k mine => ?_⟩
    · obtain ⟨_, head⟩ := b.heads k
      rw [head]
      exact ready.states k mine
    · obtain ⟨_, head⟩ := b.heads k
      rw [head]
      exact ready.driven state k mine

end

end Sys2Proof.Machine

/-! ## The evaluator's arithmetic on one sample -/

namespace Sys2Proof.Machine

/-! ### A sample in an open window (R27, R29) -/

theorem observe_opened {g : Group} (opened : g.window = .opened) (envs : List Envelope) (dc depth : Int) :
    (∀ force, g.observe envs dc depth (some force) = { g with
      lastDepth := some depth
      present := g.present + 1
      maxShare := some (g.raisedMax (g.share force))
      finalShare := some (g.share force)
      members := g.members.map (Member.observe envs (depth - g.opening dc) (g.share force) (g.raisedMax (g.share force))) }) ∧
    g.observe envs dc depth none = { g with lastDepth := some depth } := by
  refine ⟨fun force => ?_, ?_⟩ <;> simp only [Group.observe, opened]

theorem observe_spec (envs : List Envelope) (dc depth force : Int) (g : Group) (opened : g.window = .opened) :
    let share := (force - g.baseline).tdiv g.members.length
    let t := g.observe envs dc depth (some force)
    let u := g.observe envs dc depth none
    t.finalShare = some share ∧
    (g.maxShare = none → t.maxShare = some share) ∧
    (∀ m, g.maxShare = some m → t.maxShare = some (max m share)) ∧
    (∀ m, t.maxShare = some m →
      t.members = g.members.map (Member.observe envs (depth - (dc + g.engage)) share m)) ∧
    t.window = .opened ∧ t.baseline = g.baseline ∧ t.present = g.present + 1 ∧ t.lastDepth = some depth ∧
    u.present = g.present ∧ u.lastDepth = some depth ∧
    u.finalShare = g.finalShare ∧ u.maxShare = g.maxShare ∧ u.members = g.members := by
  obtain ⟨present, missing⟩ := observe_opened opened envs dc depth
  dsimp only
  rw [present force, missing]
  refine ⟨rfl, fun fresh => ?_, fun m before => ?_, fun m now => ?_, opened, rfl, rfl, rfl, rfl, rfl, rfl, rfl, rfl⟩
  · simp only [Group.raisedMax, fresh, Group.share]
  · simp only [Group.raisedMax, before, Group.share]
  · have same : g.raisedMax (g.share force) = m := Option.some.inj now
    show g.members.map (Member.observe envs _ _ (g.raisedMax (g.share force))) = _
    rw [same]
    rfl

/-! ### The cursor (R25 to R27, R33) -/

/-- A group of a channel as the cursor passes it, between the one before it and the one behind it. -/
def Group.advanced (envs : List Envelope) (settle : Nat) (dc depth : Int) (lastTwo : List Int)
    (before next : Option Group) (g : Group) : Group :=
  let opened := if g.window = .unopened ∧ g.opening dc ≤ depth then g.openWith settle lastTwo before else g
  if opened.window = .opened ∧ ∃ n, next = some n ∧ n.opening dc ≤ depth then opened.close envs dc .closes else opened

theorem advanceGroups_cons (envs : List Envelope) (settle : Nat) (dc depth : Int) (lastTwo : List Int)
    (before : Option Group) (g : Group) (rest : List Group) :
    advanceGroups envs settle dc depth lastTwo before (g :: rest) =
      g.advanced envs settle dc depth lastTwo before rest.head? ::
        advanceGroups envs settle dc depth lastTwo (some g) rest := by
  have next : ((rest.head?.map (fun n => decide (n.opening dc ≤ depth))).getD false = true) ↔
      ∃ n, rest.head? = some n ∧ n.opening dc ≤ depth := by
    cases rest.head? with
    | none => exact ⟨nofun, nofun⟩
    | some n => simp
  rw [advanceGroups]
  unfold Group.advanced
  simp only [next]
  cases window : g.window <;> simp only [true_and, reduceCtorEq, false_and, if_false]

/-- The group before place `i` of a channel, `before` what stands ahead of the first. -/
def groupBefore (before : Option Group) (gs : List Group) : Nat → Option Group
  | 0 => before
  | i + 1 => gs[i]?

theorem advanceGroups_at (envs : List Envelope) (settle : Nat) (dc depth : Int) (lastTwo : List Int) :
    ∀ (gs : List Group) (before : Option Group) (i : Nat) (g : Group), gs[i]? = some g →
      (advanceGroups envs settle dc depth lastTwo before gs)[i]? =
        some (g.advanced envs settle dc depth lastTwo (groupBefore before gs i) gs[i + 1]?)
  | [], _, _, _, at_ => by cases at_
  | first :: rest, before, 0, g, at_ => by
    obtain rfl : first = g := Option.some.inj at_
    rw [advanceGroups_cons, List.getElem?_cons_zero, List.head?_eq_getElem?]
    rfl
  | first :: rest, before, i + 1, g, at_ => by
    rw [advanceGroups_cons, List.getElem?_cons_succ, advanceGroups_at envs settle dc depth lastTwo rest (some first) i g at_]
    cases i <;> rfl

section
variable {envs : List Envelope} {settle : Nat} {dc depth : Int} {lastTwo : List Int} {before next : Option Group} {g : Group}

/-- The group behind has been reached. -/
def nextReached (dc depth : Int) (next : Option Group) : Prop := ∃ n, next = some n ∧ dc + n.engage ≤ depth

theorem advanced_closed (closed : g.window = .closed) : g.advanced envs settle dc depth lastTwo before next = g := by
  simp only [Group.advanced, closed, reduceCtorEq, false_and, if_false]

theorem advanced_ahead (unopened : g.window = .unopened) (ahead : depth < dc + g.engage) :
    g.advanced envs settle dc depth lastTwo before next = g := by
  have far : ¬g.opening dc ≤ depth := by
    unfold Group.opening
    omega
  simp only [Group.advanced, unopened, far, and_false, if_false, reduceCtorEq, false_and]

theorem advanced_opens (unopened : g.window = .unopened) (reached : dc + g.engage ≤ depth) :
    let t := g.advanced envs settle dc depth lastTwo before next
    (t.window = .closed ↔ nextReached dc depth next) ∧ t.window ≠ .unopened ∧ t.baseline = lastTwo.headD 0 ∧
    t.carryUnsettled = carryDue settle lastTwo before := by
  have opens : g.opening dc ≤ depth := reached
  unfold Group.advanced
  simp only [unopened, opens, true_and, if_true]
  by_cases onward : nextReached dc depth next
  · rw [if_pos ⟨rfl, onward⟩]
    exact ⟨iff_of_true rfl onward, nofun, rfl, rfl⟩
  · rw [if_neg fun both => onward both.2]
    exact ⟨iff_of_false nofun onward, nofun, rfl, rfl⟩

theorem advanced_open (opened : g.window = .opened) :
    let t := g.advanced envs settle dc depth lastTwo before next
    (t.window = .closed ↔ nextReached dc depth next) ∧ t.baseline = g.baseline ∧ t.carryUnsettled = g.carryUnsettled := by
  unfold Group.advanced
  simp only [opened, reduceCtorEq, false_and, if_false, true_and]
  by_cases onward : nextReached dc depth next
  · rw [if_pos (show ∃ n, next = some n ∧ n.opening dc ≤ depth from onward)]
    exact ⟨iff_of_true rfl onward, rfl, rfl⟩
  · rw [if_neg (show ¬∃ n, next = some n ∧ n.opening dc ≤ depth from onward)]
    exact ⟨iff_of_false (by rw [opened]; exact nofun) onward, rfl, rfl⟩

theorem carryDue_iff (settle : Nat) (lastTwo : List Int) (before : Option Group) : carryDue settle lastTwo before = true ↔
    0 < settle ∧ ∃ p a b more, before = some p ∧ p.window = .opened ∧ 2 ≤ p.present ∧ lastTwo = a :: b :: more ∧
      settle < (a - b).natAbs := by
  rcases before with _ | p
  · exact ⟨nofun, by rintro ⟨_, _, _, _, _, impossible, _⟩; cases impossible⟩
  · rcases lastTwo with _ | ⟨a, _ | ⟨b, more⟩⟩
    · exact ⟨nofun, by rintro ⟨_, _, _, _, _, _, _, _, impossible, _⟩; cases impossible⟩
    · exact ⟨nofun, by rintro ⟨_, _, _, _, _, _, _, _, impossible, _⟩; cases impossible⟩
    · simp only [carryDue, Bool.and_eq_true, decide_eq_true_eq]
      constructor
      · rintro ⟨⟨⟨wanted, opened⟩, held⟩, apart⟩
        exact ⟨wanted, p, a, b, more, rfl, opened, held, rfl, apart⟩
      · rintro ⟨wanted, q, a', b', more', same, opened, held, values, apart⟩
        cases same
        cases values
        exact ⟨⟨⟨wanted, opened⟩, held⟩, apart⟩

end

theorem advanceGroups_windows (envs : List Envelope) (settle : Nat) (dc depth : Int) (lastTwo : List Int) (before : Option Group)
    (gs : List Group) (i : Nat) (g : Group) (at_ : gs[i]? = some g) :
    ∃ t, (advanceGroups envs settle dc depth lastTwo before gs)[i]? = some t ∧
      (g.window = .closed → t = g) ∧
      (g.window = .unopened → depth < dc + g.engage → t = g) ∧
      (g.window = .unopened → dc + g.engage ≤ depth → t.window ≠ .unopened ∧
        t.baseline = lastTwo.headD 0) ∧
      (g.window = .opened → t.baseline = g.baseline) ∧
      (g.window = .opened ∨ g.window = .unopened ∧ dc + g.engage ≤ depth →
        (t.window = .closed ↔ ∃ n, gs[i + 1]? = some n ∧ dc + n.engage ≤ depth)) := by
  refine ⟨_, advanceGroups_at envs settle dc depth lastTwo gs before i g at_, advanced_closed, advanced_ahead,
    fun unopened reached => ?_, fun opened => (advanced_open opened).2.1, ?_⟩
  · obtain ⟨_, working, baseline, _⟩ := advanced_opens (envs := envs) (settle := settle) (lastTwo := lastTwo)
      (before := groupBefore before gs i) (next := gs[i + 1]?) unopened reached
    exact ⟨working, baseline⟩
  · rintro (opened | ⟨unopened, reached⟩)
    · exact (advanced_open opened).1
    · exact (advanced_opens unopened reached).1

theorem advanceGroups_carry (envs : List Envelope) (settle : Nat) (dc depth : Int) (lastTwo : List Int) (gs : List Group)
    (i : Nat) (g : Group) (at_ : gs[i]? = some g) :
    ∃ t, (advanceGroups envs settle dc depth lastTwo none gs)[i]? = some t ∧
      (g.window ≠ .unopened → t.carryUnsettled = g.carryUnsettled) ∧
      (g.window = .unopened → dc + g.engage ≤ depth →
        (t.carryUnsettled = true ↔ 0 < settle ∧ 0 < i ∧
          ∃ before a b more, gs[i - 1]? = some before ∧ before.window = .opened ∧ 2 ≤ before.present ∧
            lastTwo = a :: b :: more ∧ settle < (a - b).natAbs)) := by
  refine ⟨_, advanceGroups_at envs settle dc depth lastTwo gs none i g at_, fun working => ?_, fun unopened reached => ?_⟩
  · cases window : g.window
    case unopened => exact absurd window working
    case opened => exact (advanced_open window).2.2
    case closed => rw [advanced_closed window]
  · obtain ⟨_, _, _, carry⟩ := advanced_opens (envs := envs) (settle := settle) (lastTwo := lastTwo)
      (before := groupBefore none gs i) (next := gs[i + 1]?) unopened reached
    rw [carry, carryDue_iff]
    cases i with
    | zero => exact ⟨fun ⟨_, _, _, _, _, ahead, _⟩ => (nomatch ahead), fun ⟨_, first, _⟩ => absurd first (Nat.lt_irrefl 0)⟩
    | succ i => exact ⟨fun ⟨wanted, held⟩ => ⟨wanted, i.succ_pos, held⟩, fun ⟨wanted, _, held⟩ => ⟨wanted, held⟩⟩

end Sys2Proof.Machine

/-! ## Shares, bands and verdicts -/

namespace Sys2Proof.Machine

/-! ### Bands (R30, R31) -/

theorem band_counts_iff (b : Band) (r : Int) : b.counts r = true ↔ (b.bandFrom : Int) ≤ r ∧ r < b.bandTo := by
  simp only [Band.counts, Bool.and_eq_true, decide_eq_true_eq]

theorem band_isLow_iff (b : Band) (r share : Int) :
    b.isLow r share = true ↔ (b.bandFrom : Int) ≤ r ∧ r < b.bandTo ∧ share < b.minShare := by
  simp only [Band.isLow, Bool.and_eq_true, band_counts_iff, decide_eq_true_eq, and_assoc]

theorem band_isHigh_iff (b : Band) (r share : Int) :
    b.isHigh r share = true ↔ (b.bandFrom : Int) ≤ r ∧ r < b.bandTo ∧ b.maxShare < share := by
  simp only [Band.isHigh, Bool.and_eq_true, band_counts_iff, decide_eq_true_eq, and_assoc]

theorem band_asksHalt_iff (b : Band) (r share : Int) : b.asksHalt r share = true ↔
    b.haltAction = true ∧ (b.bandFrom : Int) ≤ r ∧ r < b.bandTo ∧ (share < b.minShare ∨ b.maxShare < share) := by
  simp only [Band.asksHalt, Bool.and_eq_true, Bool.or_eq_true, band_isLow_iff, band_isHigh_iff, ← and_or_left]

theorem member_asksHalt_iff (envs : List Envelope) (r share : Int) (m : Member) : m.asksHalt envs r share = true ↔
    ∃ e, m.judgedOn envs = some e ∧ ∃ b ∈ e.bands, b.asksHalt r share = true := by
  unfold Member.asksHalt
  cases m.judgedOn envs with
  | none => exact ⟨nofun, nofun⟩
  | some e => simp only [List.any_eq_true, Option.some.injEq, exists_eq_left']

theorem group_asksHalt_iff (envs : List Envelope) (dc depth : Int) (value : Option Int) (g : Group) :
    g.asksHalt envs dc depth value = true ↔ ∃ force, value = some force ∧ violatesHaltBand envs dc depth force g := by
  cases value with
  | none =>
    refine iff_of_false ?_ nofun
    unfold Group.asksHalt
    cases g.window <;> exact nofun
  | some force =>
    simp only [Option.some.injEq, exists_eq_left', violatesHaltBand]
    by_cases opened : g.window = .opened
    · simp only [Group.asksHalt, opened, List.any_eq_true, member_asksHalt_iff, band_asksHalt_iff, true_and]
      rfl
    · refine iff_of_false ?_ fun both => opened both.1
      unfold Group.asksHalt
      cases window : g.window
      case opened => exact absurd window opened
      all_goals exact nofun

theorem channel_asksHalt_iff (envs : List Envelope) (settle : Nat) (dc depth : Int) (value : Option Int) (c : PlanChannel) :
    c.asksHalt envs settle dc depth value = true ↔ ∃ force, value = some force ∧
      ∃ g ∈ advanceGroups envs settle dc depth c.lastTwo none c.groups, violatesHaltBand envs dc depth force g := by
  simp only [PlanChannel.asksHalt, List.any_eq_true, group_asksHalt_iff]
  constructor
  · rintro ⟨g, mem, force, present, violates⟩
    exact ⟨force, present, g, mem, violates⟩
  · rintro ⟨force, present, g, mem, violates⟩
    exact ⟨g, mem, force, present, violates⟩

/-! ### A plan's sample (R21, R31) -/

theorem channelTake_eq (envs : List Envelope) (settle : Nat) (dc depth : Int) (value : Option Int) (c : PlanChannel) :
    c.take envs settle dc depth value = { c with
      groups := (advanceGroups envs settle dc depth c.lastTwo none c.groups).map (Group.observe envs dc depth value)
      lastTwo := match value with
        | none => c.lastTwo
        | some force => force :: c.lastTwo.take 1 } := by
  cases value <;> rfl

theorem planTake_spec (settle : Nat) (x : HeadId) (smp : Sample) (p : Plan) :
    let t := p.take settle x smp
    let moved := fun c : PlanChannel =>
      advanceGroups p.envelopes settle p.contactDepth smp.depth c.lastTwo none c.groups
    t = { p with asked := t.asked, channels := t.channels } ∧
    (t.asked = true ↔ p.asked = true ∨ ∃ c ∈ p.channels, ∃ force, valueIn smp x c = some force ∧
      ∃ g ∈ moved c, violatesHaltBand p.envelopes p.contactDepth smp.depth force g) ∧
    t.channels = p.channels.map (fun c =>
      { c with
        groups := (moved c).map (Group.observe p.envelopes p.contactDepth smp.depth (valueIn smp x c))
        lastTwo := match valueIn smp x c with
          | none => c.lastTwo
          | some force => force :: c.lastTwo.take 1 }) := by
  intro t moved
  refine ⟨rfl, ?_, ?_⟩
  · show (p.asked || p.channels.any _) = true ↔ _
    rw [Bool.or_eq_true, List.any_eq_true]
    refine or_congr_right (exists_congr fun c => and_congr_right fun _ => ?_)
    exact channel_asksHalt_iff _ _ _ _ (valueIn smp x c) c
  · refine List.map_congr_left fun c _ => ?_
    show c.take _ _ _ _ (valueIn smp x c) = _
    exact channelTake_eq ..

/-! ### Fault marks (R35) -/

theorem markFaults_closed {p : Plan} (closed : p.phase = .closed) (faulted : HeadId → Nat → Bool) : p.markFaults faulted = p := by
  simp only [Plan.markFaults, closed]

theorem markFaults_running {p : Plan} (running : p.phase ≠ .closed) (faulted : HeadId → Nat → Bool) :
    p.markFaults faulted = { p with
      channels := p.channels.map (fun c => { c with
        groups := c.groups.map (fun g => { g with
          channelFault := g.channelFault || faulted c.head c.tine && decide (g.window ≠ .closed) }) }) } := by
  have marks : p.markFaults faulted = { p with channels := p.channels.map (fun c =>
      if faulted c.head c.tine then
        { c with groups := c.groups.map (fun g => if g.window = .closed then g else { g with channelFault := true }) }
      else c) } := by
    cases phase : p.phase
    case closed => exact absurd phase running
    all_goals simp only [Plan.markFaults, phase]
  have each : ∀ c : PlanChannel, (if faulted c.head c.tine then
        { c with groups := c.groups.map (fun g => if g.window = .closed then g else { g with channelFault := true }) }
      else c) = { c with groups := c.groups.map (fun g => { g with
          channelFault := g.channelFault || faulted c.head c.tine && decide (g.window ≠ .closed) }) } := fun c => by
    cases faulted c.head c.tine
    · simp
    · rw [if_pos rfl]
      refine congrArg (fun gs => { c with groups := gs }) (List.map_congr_left fun g _ => ?_)
      by_cases closed : g.window = .closed
      · rw [if_pos closed, decide_eq_false (not_not.mpr closed), Bool.and_false, Bool.or_false]
      · simp [closed]
  simp only [marks, each]

/-! ### History and replay (R24, R94) -/

theorem replayOf_append {dc : Int} {older newer : List Sample} (before : ∀ smp ∈ older, smp.depth < dc)
    (after : ∀ smp ∈ newer, dc ≤ smp.depth) : replayOf dc (older ++ newer) = newer := by
  have gone : older.filter (fun smp => decide (dc ≤ smp.depth)) = [] := List.filter_eq_nil_iff.mpr fun smp mem deep =>
    absurd (before smp mem) (by have := of_decide_eq_true deep; omega)
  have kept : newer.filter (fun smp => decide (dc ≤ smp.depth)) = newer :=
    List.filter_eq_self.mpr fun smp mem => decide_eq_true (after smp mem)
  rw [replayOf, List.filter_append, gone, kept, List.nil_append]

theorem addHistory_of {kept : List Sample} (bound : kept.length ≤ 16) (smp : Sample) :
    addHistory kept smp = if kept.length = 16 then kept.tail ++ [smp] else kept ++ [smp] := by
  have length : (kept ++ [smp]).length = kept.length + 1 := List.length_append
  unfold addHistory
  dsimp only
  rw [length]
  by_cases full : kept.length = 16
  · rw [if_pos full, full]
    cases kept with
    | nil => cases full
    | cons first rest => rfl
  · rw [if_neg full, show kept.length + 1 - 16 = 0 by omega, List.drop_zero]

/-! ### A member's sample (R30, R32) -/

theorem bumpCounts_at (r : Int) : ∀ (bands : List Band) (counts : List Nat) (i : Nat) (b : Band) (n : Nat),
    bands[i]? = some b → counts[i]? = some n →
    (bumpCounts r bands counts)[i]? = some (if (b.bandFrom : Int) ≤ r ∧ r < b.bandTo then n + 1 else n)
  | [], _, _, _, _, there, _ => by cases there
  | _ :: _, [], _, _, _, _, there => by cases there
  | first :: bands, c :: counts, 0, b, n, band, count => by
    obtain rfl : first = b := Option.some.inj band
    obtain rfl : c = n := Option.some.inj count
    simp only [bumpCounts, List.getElem?_cons_zero, band_counts_iff]
  | first :: bands, c :: counts, i + 1, b, n, band, count => bumpCounts_at r bands counts i b n band count

theorem memberObserve_judged {envs : List Envelope} {m : Member} {e : Envelope} (judged : m.judgedOn envs = some e)
    (r share mx : Int) : m.observe envs r share mx = { m with
      counts := bumpCounts r e.bands m.counts
      low := m.low || e.bands.any (·.isLow r share)
      high := m.high || e.bands.any (·.isHigh r share)
      buckle := m.buckle || (decide (0 < e.buckleDrop) && decide (share < mx - e.buckleDrop))
      firstBand := m.firstBand.or (firstViolated r share 0 e.bands) } := by
  simp only [Member.observe, judged]

theorem memberObserve_spec (envs : List Envelope) (r share mx : Int) (m : Member) :
    let t := m.observe envs r share mx
    (m.judgedOn envs = none → t = m) ∧
    ∀ e, m.judgedOn envs = some e →
      (t.low = true ↔ m.low = true ∨
        ∃ b ∈ e.bands, (b.bandFrom : Int) ≤ r ∧ r < b.bandTo ∧ share < b.minShare) ∧
      (t.high = true ↔ m.high = true ∨
        ∃ b ∈ e.bands, (b.bandFrom : Int) ≤ r ∧ r < b.bandTo ∧ b.maxShare < share) ∧
      (t.buckle = true ↔ m.buckle = true ∨ 0 < e.buckleDrop ∧ share < mx - e.buckleDrop) ∧
      (∀ first, m.firstBand = some first → t.firstBand = some first) ∧
      (∀ (i : Nat) (b : Band) (n : Nat), e.bands[i]? = some b → m.counts[i]? = some n →
        t.counts[i]? = some (if (b.bandFrom : Int) ≤ r ∧ r < b.bandTo then n + 1 else n)) := by
  refine ⟨fun unjudged => by simp only [Member.observe, unjudged], fun e judged => ?_⟩
  rw [memberObserve_judged judged]
  refine ⟨?_, ?_, ?_, fun first violated => ?_, bumpCounts_at r e.bands m.counts⟩
  · simp only [Bool.or_eq_true, List.any_eq_true, band_isLow_iff]
  · simp only [Bool.or_eq_true, List.any_eq_true, band_isHigh_iff]
  · simp only [Bool.or_eq_true, Bool.and_eq_true, decide_eq_true_eq]
  · simp only [violated, Option.some_or]

/-! ### Verdicts and outcome (R37, R38, R40, R41) -/

theorem verdictAt_spec (envs : List Envelope) (g : Group) (dc : Int) (how : WindowEnd) (m : Member) :
    (m.judgedOn envs = none → m.verdictAt envs g dc how = .unjudged) ∧
    ∀ e, m.judgedOn envs = some e → m.verdictAt envs g dc how =
      if g.channelFault = true ∨ how ≠ .closes then .notChecked
      else if g.maxShare = none then .noData
      else if g.maxShare.getD 0 < e.engageMin then .noEngage
      else if m.buckle then .buckle
      else if m.high then .high
      else if m.low then .low
      else if missedBand (g.windowLength dc) e.bands m.counts then .noData
      else .pass := by
  refine ⟨fun unjudged => by simp only [Member.verdictAt, unjudged], fun e judged => ?_⟩
  simp only [Member.verdictAt, judged, Member.judge, Bool.or_eq_true, decide_eq_true_eq]
  cases g.maxShare <;> rfl

theorem pressEnd_outcome (p : Plan) (depth : Int) (mode : SeatMode) (seated : Bool) :
    let r := (p.pressEnd depth mode seated).2
    (r.outcome, r.reason) =
      if mode ≠ .depth ∧ seated = false then (.fail, .noSeat)
      else if depth - p.contactDepth < p.seatMin ∨ p.seatMax < depth - p.contactDepth then
        (.fail, .seatRange)
      else if 0 < r.failed + r.notChecked then (.fail, .pin)
      else (.pass, .none) := by
  simp only [Plan.pressEnd, pressOutcome, Bool.and_eq_true, Bool.or_eq_true, decide_eq_true_eq, Bool.not_eq_true']

/-- Settles O34. -/
theorem shareOfASample : Obligations.ShareOfASample :=
  ⟨observe_spec, by decide, advanceGroups_windows, advanceGroups_carry, planTake_spec,
    fun faulted _ => ⟨fun closed => markFaults_closed closed faulted, fun running => markFaults_running running faulted⟩,
    fun _ _ _ before after => replayOf_append before after, fun _ smp bound => addHistory_of bound smp,
    memberObserve_spec, verdictAt_spec, pressEnd_outcome⟩

end Sys2Proof.Machine

/-! ## A read of the plan build at the head -/

namespace Sys2Proof.Machine

/-! ### An order refused, its plan (R57) -/

theorem closeBefore_plan (outcome : OrderOutcome) (reason : Reason) (x : HeadId) (s : State) (k : HeadId) :
    (closeBefore outcome reason x s).plan k = s.plan k := by
  unfold closeBefore
  dsimp only
  split
  · rfl
  · split
    · rfl
    · exact beginClosing_plan ..

theorem letGo_plans (x : HeadId) (s : State) : (letGo x s).plans = s.plans := by
  unfold letGo
  dsimp only
  split <;> rfl

theorem eachModSense_plans (f : HeadId → Sense → Sense) (hs : List HeadId) (s : State) :
    (eachHead (fun h => modSense h (f h)) hs s).plans = s.plans :=
  eachHead_keeps (P := fun t => t.plans = s.plans) (f := fun h => modSense h (f h)) (fun _ _ same => same) hs s rfl

/-- A build is given up with the order's work; a built plan stands. -/
theorem endWork_plan (x : HeadId) (s : State) :
    (∀ b, s.plan x = .loading b → (endWork x s).plan x = .empty) ∧
    (∀ p, s.plan x = .built p → (endWork x s).plan x = .built p) := by
  unfold endWork
  extract_lets a b c d
  have abandoned : b.plan x = s.plan x := congrArg (Four.get · x) (eachModSense_plans (fun _ => Sense.abandonTare) (s.unit x) a)
  have gone : ∀ f, (modHead x f d).plan x = c.plan x := fun f => congrArg (Four.get · x) (letGo_plans x c)
  rw [gone]
  have same : a.plan x = s.plan x := rfl
  refine ⟨fun build loading => ?_, fun p built => ?_⟩
  · simp only [c, abandoned, loading]
    exact plan_setPlan_same ..
  · simp only [c, abandoned, built]

theorem refuse_plan (outcome : OrderOutcome) (reason : Reason) (x : HeadId) (s : State) :
    (∀ b, s.plan x = .loading b → (refuse outcome reason x s).plan x = .empty) ∧
    (∀ p, s.plan x = .built p → (refuse outcome reason x s).plan x = .built p) := by
  obtain ⟨loading, built⟩ := endWork_plan x s
  exact ⟨fun b is => (closeBefore_plan ..).trans (loading b is), fun p is => (closeBefore_plan ..).trans (built p is)⟩

theorem refuse_state (outcome : OrderOutcome) (reason : Reason) (x : HeadId) (s : State) (k : HeadId) :
    ((refuse outcome reason x s).head k).state = (s.head k).state := by
  obtain ⟨_, _, _, _, head⟩ := head_closeBefore outcome reason x (endWork x s) k
  rw [refuse, head, head_endWork]
  split <;> rfl

/-! ### The entry to ZONE_WAIT (R58, R59) -/

section
variable {x : HeadId} {s : State} {o : Order}

/-- The unit in ZONE_WAIT, before its tools are looked at. -/
def waiting (x : HeadId) (s : State) : State := enterState .zoneWait x (modHead x (fun m => { m with prep := .none }) s)

theorem enterZoneWait_of (order : (s.head x).current = some o) : enterZoneWait x s =
    if (s.unit x).any (fun h => (s.tool h).state = .fault) then refuse .refused .toolFault x (waiting x s)
    else sendClaim x (.request (intervalLow s.setup.zoneMargin o.zoneFrom) (intervalHigh s.setup.zoneMargin o.zoneTo) o.age)
      (modHead x (fun m => { m with claim := .requested }) (waiting x s)) := by
  let a := modHead x (fun m => { m with prep := .none }) s
  have readied : a.head x = { s.head x with prep := .none } := head_modHead_same x (fun m => { m with prep := .none }) s
  have entered := head_enterState .zoneWait x a x
  rw [if_pos (mem_unit_self a x), readied] at entered
  have current : ((waiting x s).head x).current = some o := (congrArg Head.current entered).trans order
  have gang := congrArg Head.gang entered
  unfold enterZoneWait
  extract_lets w
  have unit : w.unit x = s.unit x := unit_congr gang
  have tool : ∀ k, w.tool k = s.tool k := fun k =>
    congrArg (Four.get · k) (enterState_press .zoneWait x a).stands.1.1
  have setup : w.setup = s.setup := (enterState_setup ..).trans rfl
  split
  · next gone => cases gone.symm.trans current
  · next o' is =>
    obtain rfl : o' = o := Option.some.inj (is.symm.trans current)
    simp only [unit, tool, setup]
    rfl

theorem waiting_spec (order : (s.head x).current = some o) : (waiting x s).plans = s.plans ∧
    (waiting x s).claims = s.claims ∧ (waiting x s).claimMsgs = s.claimMsgs ∧
    (∀ k ∈ s.unit x, ((waiting x s).head k).state = .zoneWait) ∧ ((waiting x s).head x).current = some o ∧
    ((waiting x s).head x).outcomeFixed = (s.head x).outcomeFixed ∧
    ((waiting x s).head x).writeFailed = (s.head x).writeFailed := by
  let a := modHead x (fun m => { m with prep := .none }) s
  have readied : a.head x = { s.head x with prep := .none } := head_modHead_same x (fun m => { m with prep := .none }) s
  have unit : a.unit x = s.unit x := unit_congr (by rw [readied])
  have entered : ∀ k ∈ s.unit x, (waiting x s).head k = _ := fun k mine =>
    (head_enterState .zoneWait x a k).trans (if_pos (unit ▸ mine))
  obtain ⟨_, board, _⟩ := (enterState_press .zoneWait x a).stands
  obtain ⟨claims, messages, _⟩ := board
  have self := entered x (mem_unit_self s x)
  rw [readied] at self
  have current := congrArg Head.current self
  have fixed := congrArg Head.outcomeFixed self
  have failed := congrArg Head.writeFailed self
  refine ⟨enterState_plans .zoneWait x a, claims, messages, fun k mine => ?_, current.trans order, fixed, failed⟩
  rw [entered k mine]
  rfl

theorem interval_bounds (margin zoneFrom zoneTo : Nat) :
    intervalLow margin zoneFrom = (if zoneFrom < margin then 0 else zoneFrom - margin) ∧
    intervalHigh margin zoneTo = (if 65535 < zoneTo + margin then 65535 else zoneTo + margin) := by
  unfold intervalLow intervalHigh
  exact ⟨by split <;> omega, by split <;> omega⟩

theorem enterZoneWait_spec {p : Plan} (built : s.plan x = .built p) (order : (s.head x).current = some o)
    (unfixed : (s.head x).outcomeFixed = false) (intact : (s.head x).writeFailed = false) :
    let t := enterZoneWait x s
    t.plan x = .built p ∧ (∀ k ∈ s.unit x, (t.head k).state = .zoneWait) ∧ t.claims = s.claims ∧
    ((∃ k ∈ s.unit x, (s.tool k).state = .fault) → closingBare x o .refused .toolFault t) ∧
    ((∀ k ∈ s.unit x, (s.tool k).state ≠ .fault) → (t.head x).claim = .requested ∧
      t.claimMsgs.get x = s.claimMsgs.get x ++ [.request
        (if o.zoneFrom < s.setup.zoneMargin then 0 else o.zoneFrom - s.setup.zoneMargin)
        (if 65535 < o.zoneTo + s.setup.zoneMargin then 65535 else o.zoneTo + s.setup.zoneMargin) o.age]) := by
  obtain ⟨plans, claims, messages, states, current, fixed, failed⟩ := waiting_spec order
  have plan : (waiting x s).plan x = .built p := (congrArg (Four.get · x) plans).trans built
  have enters := enterZoneWait_of order
  by_cases broken : (s.unit x).any (fun h => (s.tool h).state = .fault) = true
  · rw [if_pos broken] at enters
    rw [enters]
    refine ⟨(refuse_plan ..).2 p plan, fun k mine => (refuse_state ..).trans (states k mine),
      (refuse_worked (P := fun _ => True) .refused .toolFault (subset_all _)).frame.claims.trans claims, fun _ =>
      closingBare_ended _ _ current (fixed.trans unfixed) (failed.trans intact), fun whole => ?_⟩
    obtain ⟨k, mine, fault⟩ := List.any_eq_true.mp broken
    exact absurd (of_decide_eq_true fault) (whole k mine)
  · rw [if_neg broken] at enters
    rw [enters]
    refine ⟨plan, fun k mine => ?_, claims, fun ⟨k, mine, fault⟩ => ?_, fun _ => ⟨?_, ?_⟩⟩
    · rw [head_sendClaim]
      by_cases own : k = x
      · subst own
        rw [head_modHead_same]
        exact states k mine
      · rw [head_modHead_other own]
        exact states k mine
    · exact absurd (List.any_eq_true.mpr ⟨k, mine, decide_eq_true fault⟩) broken
    · rw [head_sendClaim, head_modHead_same]
    · rw [sendClaim_claimMsgs, Four.get_set_same, modHead_claimMsgs, messages]
      obtain ⟨low, high⟩ := interval_bounds s.setup.zoneMargin o.zoneFrom o.zoneTo
      rw [low, high]

end

/-! ### The read (R15, R56) -/

section
variable {h : HeadId} {s : State} {o : Order} {b : Build}

theorem planRead_of (state : (s.head h).state = .prepare) (order : (s.head h).current = some o)
    (loading : s.plan h = .loading b) :
    planRead h none s = refuse .refused .memory h s ∧
    ∀ d, (∀ why, b.advance s.setup o (s.tool h).tines (s.tool h.companion).tines d = .fail why →
        planRead h (some d) s = refuse .refused why h s) ∧
      (∀ b' off len, b.advance s.setup o (s.tool h).tines (s.tool h.companion).tines d = .read b' off len →
        planRead h (some d) s = requestRead (.planRead h) off len (setPlan h (.loading b') s)) ∧
      (∀ p, b.advance s.setup o (s.tool h).tines (s.tool h.companion).tines d = .complete p →
        planRead h (some d) s = planBuilt h p s) := by
  refine ⟨by simp only [planRead, state, order, loading, if_true], fun d => ⟨fun why is => ?_, fun b' off len is => ?_,
    fun p is => ?_⟩⟩ <;>
    simp only [planRead, state, order, loading, is, if_true]

/-- A read of the build, whatever it finds. -/
theorem planReadDone_spec (flight : inFlightFor (.planRead h) s) (state : (s.head h).state = .prepare)
    (order : (s.head h).current = some o) (loading : s.plan h = .loading b) (unfixed : (s.head h).outcomeFixed = false)
    (intact : (s.head h).writeFailed = false) :
    Answers (.planReadDone h none) s (fun t =>
      closingBare h o .refused .memory t ∧ t.plan h = .empty) ∧
    (∀ d why, b.advance s.setup o (s.tool h).tines (s.tool h.companion).tines d = .fail why →
      Answers (.planReadDone h (some d)) s (fun t =>
        closingBare h o .refused why t ∧ t.plan h = .empty)) ∧
    (∀ d b' off len,
      b.advance s.setup o (s.tool h).tines (s.tool h.companion).tines d = .read b' off len →
      Answers (.planReadDone h (some d)) s (fun t =>
        t.plan h = .loading b' ∧ reads (.planRead h) off len t ∧ t.heads = s.heads)) ∧
    (∀ d p, b.advance s.setup o (s.tool h).tines (s.tool h.companion).tines d = .complete p →
      Answers (.planReadDone h (some d)) s (fun t =>
        t.plan h = .built p ∧
        (s.mappedFault p = true → closingBare h o .refused .channel t) ∧
        (s.mappedFault p = false →
          (∀ k ∈ s.unit h, (t.head k).state = .zoneWait) ∧ t.claims = s.claims ∧
          ((∃ k ∈ s.unit h, (s.tool k).state = .fault) →
            closingBare h o .refused .toolFault t) ∧
          ((∀ k ∈ s.unit h, (s.tool k).state ≠ .fault) →
            (t.head h).claim = .requested ∧
            t.claimMsgs.get h = s.claimMsgs.get h ++ [.request
              (if o.zoneFrom < s.setup.zoneMargin then 0 else o.zoneFrom - s.setup.zoneMargin)
              (if 65535 < o.zoneTo + s.setup.zoneMargin then 65535
                else o.zoneTo + s.setup.zoneMargin) o.age])))) := by
  obtain ⟨rest, live⟩ := onComplete_live flight
  let u := s.withBus rest
  have runs : ∀ data, exec (.planReadDone h data) s = finish (planRead h data u) := fun data =>
    congrArg finish (live (planRead h data))
  obtain ⟨lost, found⟩ := planRead_of (s := u) state order loading
  have refused : ∀ why t, Ended (refuse .refused why h u) t → closingBare h o .refused why t ∧ t.plan h = .empty :=
    fun why t e => ⟨closingBare.of_ended (closingBare_ended (s := u) _ _ order unfixed intact) e,
      (e.plan h).trans ((refuse_plan ..).1 b loading)⟩
  refine ⟨.of_finish ((runs none).trans (congrArg finish lost)) (refused .memory), fun d why is => ?_,
    fun d b' off len is => ?_, fun d p is => ?_⟩
  · exact .of_finish ((runs (some d)).trans (congrArg finish ((found d).1 why is))) (refused why)
  · refine .of_finish ((runs (some d)).trans (congrArg finish ((found d).2.1 b' off len is))) fun t e => ?_
    exact ⟨(e.plan h).trans (plan_setPlan_same h (.loading b') u), e.reads (fun _ => nofun) nofun (reads_requestRead ..), e.heads⟩
  · let v := setPlan h (.built p) u
    have plan : v.plan h = .built p := plan_setPlan_same ..
    have mapped : v.mappedFault p = s.mappedFault p := rfl
    refine .of_finish ((runs (some d)).trans (congrArg finish ((found d).2.2 p is))) fun t e => ?_
    cases fault : s.mappedFault p
    · rw [show planBuilt h p u = enterZoneWait h v from if_neg (by rw [mapped, fault]; exact Bool.false_ne_true)] at e
      obtain ⟨built, states, claims, broken, whole⟩ := enterZoneWait_spec plan order unfixed intact
      refine ⟨(e.plan h).trans built, nofun, fun _ => ⟨fun k mine => ?_, e.claims.trans claims,
        fun some => (broken some).of_ended e, fun all => ?_⟩⟩
      · rw [e.head]
        exact states k mine
      · obtain ⟨claim, messages⟩ := whole all
        exact ⟨by rw [e.head]; exact claim, by rw [e.claimMsgs]; exact messages⟩
    · rw [show planBuilt h p u = refuse .refused .channel h v from if_pos (by rw [mapped, fault])] at e
      exact ⟨(e.plan h).trans ((refuse_plan ..).2 p plan), fun _ =>
        closingBare.of_ended (closingBare_ended (s := v) _ _ order unfixed intact) e, nofun⟩

end

end Sys2Proof.Machine

/-! ## What a read of the plan build is checked for -/

namespace Sys2Proof.Machine

/-! ### Slots and headers (R1, R2, R4) -/

theorem checkSlot_spec (area room value : Nat) : (badSlot area room value → checkSlot area room value = none) ∧
    (¬badSlot area room value → checkSlot area room value = some value) := by
  have good : (value ≠ 0 ∧ fits 64 0 value room area = true) ↔ ¬badSlot area room value := by
    simp only [fits, badSlot, Bool.and_eq_true, decide_eq_true_eq]
    omega
  exact ⟨fun bad => if_neg fun ok => good.mp ok bad, fun ok => if_pos (good.mpr ok)⟩

theorem bytesFrom_eq (d : List Byte) : ∀ i n, bytesFrom d i n = (List.range' i n).map (byteAt d)
  | _, 0 => rfl
  | i, n + 1 => by rw [bytesFrom, bytesFrom_eq d (i + 1) n, List.range'_succ, List.map_cons]

theorem classDefault_eq (d : List Byte) : bytesFrom d 16 16 = (List.range 16).map (fun k => byteAt d (16 + k)) := by
  rw [bytesFrom_eq, List.range'_eq_map_range, List.map_map]
  rfl

theorem classDefaults_valid (d : List Byte) : (bytesFrom d 16 16).all validDefault = true ↔
    ∀ k : Fin 16, byteAt d (16 + k) ≤ 63 ∨ byteAt d (16 + k) = 255 := by
  simp only [classDefault_eq, List.all_map, List.all_eq_true, List.mem_range, Function.comp, validDefault, Bool.or_eq_true,
    decide_eq_true_eq]
  exact ⟨fun each k => each k k.isLt, fun each k bound => each ⟨k, bound⟩⟩

theorem inRange_iff (lo n hi : Nat) : inRange lo n hi = true ↔ lo ≤ n ∧ n ≤ hi := by
  simp only [inRange, Bool.and_eq_true, decide_eq_true_eq]

theorem checkMapHeader_spec (area : Nat) (o : Order) (off : Nat) (d : List Byte) :
    (¬goodMapHeader area o off d → checkMapHeader area o off d = none) ∧
    (goodMapHeader area o off d → checkMapHeader area o off d = some (mapHeaderFields d)) := by
  have good : ((mapHeaderFields d).id = o.mapId && inRange 1 (mapHeaderFields d).pinCount 1024 &&
      inRange 1 (mapHeaderFields d).columns 64 && inRange 1 (mapHeaderFields d).rows 64 &&
      decide ((mapHeaderFields d).seatMin ≤ (mapHeaderFields d).seatMax) && (mapHeaderFields d).classDefault.all validDefault &&
      decide (off + 32 + 8 * (mapHeaderFields d).pinCount ≤ area) &&
      decide ((mapHeaderFields d).pinCount ≤ o.resultCapacity)) = true ↔ goodMapHeader area o off d := by
    simp only [Bool.and_eq_true, decide_eq_true_eq, inRange_iff, and_assoc]
    simp only [mapHeaderFields, classDefaults_valid, goodMapHeader]
  exact ⟨fun bad => if_neg fun ok => bad (good.mp ok), fun ok => if_pos (good.mpr ok)⟩

theorem checkEnvelopeHeader_iff (area id off : Nat) (d : List Byte) :
    checkEnvelopeHeader area id off d = true ↔ goodEnvelopeHeader area id off d := by
  simp only [checkEnvelopeHeader, goodEnvelopeHeader, Bool.and_eq_true, decide_eq_true_eq, inRange_iff, and_assoc]

/-! ### Pin entries (R3) -/

theorem pinEntries_eq (d : List Byte) : ∀ i n, pinEntries d i n = (List.range' i n).map (entryAt d)
  | _, 0 => rfl
  | i, n + 1 => by
    rw [pinEntries, pinEntries_eq d (i + 1) n, List.range'_succ, List.map_cons]
    rfl

/-- Two entries name one position. -/
def samePosition (e x : PinEntry) : Prop := x.row = e.row ∧ x.column = e.column

theorem sharePosition_iff : ∀ es : List PinEntry, sharePosition es = false ↔ es.Pairwise (fun e x => ¬samePosition e x)
  | [] => iff_of_true rfl .nil
  | e :: rest => by
    simp only [sharePosition, Bool.or_eq_false_iff, List.any_eq_false, sharePosition_iff rest, List.pairwise_cons, samePosition,
      Bool.and_eq_true, decide_eq_true_eq]

theorem entry_valid_iff (m : MapHeader) (e : PinEntry) : e.valid m = true ↔
    e.row ≤ 63 ∧ e.row < m.rows ∧ e.column ≤ 63 ∧ e.column < m.columns ∧ e.cls ≤ 15 ∧ e.engage ≤ 20000 := by
  simp only [PinEntry.valid, Bool.and_eq_true, decide_eq_true_eq, and_assoc]

/-- The entries of a map, one after another. -/
def entriesOf (m : MapHeader) (d : List Byte) : List PinEntry := (List.range m.pinCount).map (entryAt d)

theorem goodEntries_iff (m : MapHeader) (d : List Byte) : goodEntries m d ↔
    (entriesOf m d).all (·.valid m) = true ∧ sharePosition (entriesOf m d) = false := by
  have fields : (entriesOf m d).all (·.valid m) = true ↔ ∀ i, i < m.pinCount → (entryAt d i).valid m = true := by
    simp only [entriesOf, List.all_map, List.all_eq_true, List.mem_range, Function.comp]
  have places : (entriesOf m d).Pairwise (fun e x => ¬samePosition e x) ↔
      ∀ i, i < m.pinCount → ∀ j, j < i → ¬samePosition (entryAt d j) (entryAt d i) := by
    rw [List.pairwise_iff_getElem]
    simp only [entriesOf, List.length_map, List.length_range, List.getElem_map, List.getElem_range]
    exact ⟨fun each i bound j less => each j i (less.trans bound) bound less, fun each j i _ bound less => each i bound j less⟩
  rw [fields, sharePosition_iff, places]
  simp only [entry_valid_iff]
  rfl

theorem checkEntries_spec (m : MapHeader) (d : List Byte) : (¬goodEntries m d → checkEntries m d = none) ∧
    (goodEntries m d → checkEntries m d = some (entriesOf m d)) := by
  have same : pinEntries d 0 m.pinCount = entriesOf m d := by rw [pinEntries_eq, ← List.range_eq_range', entriesOf]
  have good : ((entriesOf m d).all (·.valid m) && !sharePosition (entriesOf m d)) = true ↔ goodEntries m d := by
    rw [goodEntries_iff, Bool.and_eq_true, Bool.not_eq_true']
  unfold checkEntries
  rw [same]
  exact ⟨fun bad => if_neg fun ok => bad (good.mp ok), fun ok => if_pos (good.mpr ok)⟩

/-- The classes used, each once and in ascending order (R5). -/
theorem classesUsed_spec {m : MapHeader} {d : List Byte} (good : goodEntries m d) :
    (classesUsed (entriesOf m d)).Pairwise (· < ·) ∧
    ∀ k, k ∈ classesUsed (entriesOf m d) ↔ ∃ i, i < m.pinCount ∧ (entryAt d i).cls = k := by
  refine ⟨List.pairwise_lt_range.filter _, fun k => ?_⟩
  have used : (∃ e ∈ entriesOf m d, e.cls = k) ↔ ∃ i, i < m.pinCount ∧ (entryAt d i).cls = k := by
    simp only [entriesOf, List.mem_map, List.mem_range]
    constructor
    · rintro ⟨_, ⟨i, bound, rfl⟩, cls⟩
      exact ⟨i, bound, cls⟩
    · rintro ⟨i, bound, cls⟩
      exact ⟨_, ⟨i, bound, rfl⟩, cls⟩
  simp only [classesUsed, List.mem_filter, List.mem_range, List.any_eq_true, decide_eq_true_eq, used, and_iff_right_iff_imp]
  rintro ⟨i, bound, rfl⟩
  obtain ⟨_, _, _, _, cls, _⟩ := good.1 i bound
  omega

/-! ### Bands (R4) -/

theorem bandFields_eq (d : List Byte) : ∀ b n, bandFields d b n = (List.range' b n).map (bandAt d)
  | _, 0 => rfl
  | b, n + 1 => by
    rw [bandFields, bandFields_eq d (b + 1) n, List.range'_succ, List.map_cons]
    rfl

theorem actionsValid_iff (d : List Byte) : ∀ n b, actionsValid d b n = true ↔ ∀ k, b ≤ k → k < b + n → byteAt d (16 * k + 12) ≤ 1
  | 0, b => iff_of_true rfl fun k low high => by omega
  | n + 1, b => by
    rw [actionsValid, Bool.and_eq_true, decide_eq_true_eq, actionsValid_iff d n (b + 1)]
    constructor
    · rintro ⟨first, others⟩ k low high
      rcases Nat.eq_or_lt_of_le low with rfl | more
      · exact first
      · exact others k more (by omega)
    · exact fun each => ⟨each b (Nat.le_refl b) (by omega), fun k low high => each k (by omega) (by omega)⟩

/-- The envelope of a header and its bands. -/
def envelopeOf (header d : List Byte) : Envelope :=
  { id := byteAt header 0, engageMin := s32At header 4, buckleDrop := s32At header 8,
    bands := (List.range (byteAt header 1)).map (bandAt d) }

theorem checkEnvelope_spec (header d : List Byte) : (¬goodBands header d → checkEnvelope header d = none) ∧
    (goodBands header d → checkEnvelope header d = some (envelopeOf header d)) := by
  have same : envelopeFields header d = envelopeOf header d := by
    rw [envelopeFields, bandFields_eq, ← List.range_eq_range']
    rfl
  have good : ((envelopeOf header d).bands.all (·.valid) && actionsValid d 0 (envelopeOf header d).bands.length) = true ↔
      goodBands header d := by
    simp only [envelopeOf, List.length_map, List.length_range, Bool.and_eq_true, List.all_map, List.all_eq_true, List.mem_range,
      Function.comp, Band.valid, decide_eq_true_eq, actionsValid_iff, Nat.zero_add, Nat.zero_le, true_implies, goodBands,
      ← and_assoc, forall_and]
  unfold checkEnvelope
  rw [same]
  exact ⟨fun bad => if_neg fun ok => bad (good.mp ok), fun ok => if_pos (good.mpr ok)⟩

end Sys2Proof.Machine

/-! ## Envelopes chosen -/

namespace Sys2Proof.Machine

/-! ### The choice for a class (R5, R7) -/

theorem remapFor_iff (o : Order) (cls id : Nat) : remapFor o.classRemap cls = some id ↔ remapsTo o cls id := by
  unfold remapFor Order.classRemap
  rw [Option.map_eq_some_iff]
  simp only [List.find?_eq_some_iff_getElem, decide_eq_true_eq, Bool.not_eq_true', decide_eq_false_iff_not, List.length_take,
    List.getElem_take]
  constructor
  · rintro ⟨⟨c, i⟩, ⟨rfl, j, bound, at_, before⟩, rfl⟩
    refine ⟨j, by omega, ?_, fun k less e there => ?_⟩
    · rw [List.getElem?_eq_getElem (by omega), at_]
    · obtain ⟨_, rfl⟩ := List.getElem?_eq_some_iff.mp there
      exact before k less
  · rintro ⟨j, counted, at_, before⟩
    obtain ⟨bound, is⟩ := List.getElem?_eq_some_iff.mp at_
    exact ⟨(cls, id), ⟨rfl, j, by omega, is, fun k less => before k less _ (List.getElem?_eq_getElem _)⟩, rfl⟩

theorem remapFor_none (o : Order) (cls : Nat) : remapFor o.classRemap cls = none ↔ ∀ id, ¬remapsTo o cls id := by
  simp only [Option.eq_none_iff_forall_ne_some, ne_eq, remapFor_iff]

theorem chooses_iff (o : Order) (m : MapHeader) (cls : Nat) (chosen : Option Nat) :
    chooses o m cls chosen ↔ chooseEnvelope o.classRemap m cls = chosen := by
  unfold chooses chooseEnvelope
  simp only [← remapFor_none]
  simp only [← remapFor_iff]
  cases remapFor o.classRemap cls with
  | some id =>
    simp only [Option.some.injEq, exists_eq_left', reduceCtorEq, false_and, or_false]
    exact eq_comm
  | none =>
    cases remapFor o.classRemap 16 with
    | some id =>
      simp only [Option.some.injEq, exists_eq_left', reduceCtorEq, false_and, or_false, exists_false, false_or, true_and]
      exact eq_comm
    | none =>
      simp only [reduceCtorEq, false_and, exists_false, false_or, true_and]
      exact eq_comm

/-! ### The choosing through the classes (R5, R8) -/

section
variable {o : Order} {m : MapHeader} {envs : List Envelope}

/-- A class whose envelope the plan holds, or that has none, is noted and passed. -/
theorem chooseAll_passes_one {cls : Nat} (here : copied o m envs cls) :
    ∃ x, x.1 = cls ∧ noted o m envs x ∧ ∀ rest chosen,
      chooseAll o.classRemap m envs (cls :: rest) chosen = chooseAll o.classRemap m envs rest (chosen ++ [x]) := by
  cases choice : chooseEnvelope o.classRemap m cls with
  | none =>
    exact ⟨(cls, none), rfl, .inl ⟨(chooses_iff ..).mpr choice, rfl⟩, fun rest chosen => by simp only [chooseAll, choice]⟩
  | some id =>
    have asks : chooses o m cls (some id) := (chooses_iff ..).mpr choice
    obtain ⟨e, mem, is⟩ := here id asks
    cases place : envs.findIdx? (fun e => e.id = id) with
    | none => exact absurd (List.findIdx?_eq_none_iff.mp place e mem) (by simp only [is, decide_true]; exact nofun)
    | some i =>
      obtain ⟨bound, found, _⟩ := List.findIdx?_eq_some_iff_getElem.mp place
      exact ⟨(cls, some i), rfl, .inr ⟨id, i, _, asks, rfl, List.getElem?_eq_getElem bound, of_decide_eq_true found⟩,
        fun rest chosen => by simp only [chooseAll, choice, place]⟩

theorem chooseAll_passes : ∀ before : List Nat, (∀ k ∈ before, copied o m envs k) →
    ∃ added, added.map (·.1) = before ∧ (∀ x ∈ added, noted o m envs x) ∧ ∀ rest chosen,
      chooseAll o.classRemap m envs (before ++ rest) chosen = chooseAll o.classRemap m envs rest (chosen ++ added)
  | [], _ => ⟨[], rfl, nofun, fun rest chosen => by rw [List.append_nil, List.nil_append]⟩
  | cls :: before, held => by
    obtain ⟨x, is, notes, passes⟩ := chooseAll_passes_one (held cls List.mem_cons_self)
    obtain ⟨added, classes, allNoted, goes⟩ := chooseAll_passes before fun k mem => held k (List.mem_cons_of_mem _ mem)
    refine ⟨x :: added, by rw [List.map_cons, is, classes], List.forall_mem_cons.mpr ⟨notes, allNoted⟩, fun rest chosen => ?_⟩
    rw [List.cons_append, passes, goes, List.append_assoc, List.singleton_append]

/-- A class whose envelope must be read first stops the choosing. -/
theorem chooseAll_stops {cls id : Nat} (asks : chooses o m cls (some id)) (missing : ∀ e ∈ envs, e.id ≠ id) (after : List Nat)
    (chosen : List (Nat × Option Nat)) : chooseAll o.classRemap m envs (cls :: after) chosen =
      if 16 ≤ envs.length then .tooMany else .need id (cls :: after) chosen := by
  have none : envs.findIdx? (fun e => e.id = id) = none :=
    List.findIdx?_eq_none_iff.mpr fun e mem => decide_eq_false (missing e mem)
  simp only [chooseAll, (chooses_iff ..).mp asks, none]

end

/-- The choosing of step 4 goes on as R5 and R8 say. -/
theorem goesOnChoosing_choose (c : Setup) (o : Order) (t0 t1 : Nat) (m : MapHeader) (b : Build) :
    goesOnChoosing c o t0 t1 m b (Build.choose c o t0 t1 m b) := by
  refine ⟨fun before cls after id classes held asks missing => ?_, fun held => ?_⟩
  · obtain ⟨added, map, allNoted, passes⟩ := chooseAll_passes before held
    have comes := passes (cls :: after) b.chosen
    rw [← classes, chooseAll_stops asks missing] at comes
    by_cases full : 16 ≤ b.envelopes.length
    · rw [if_pos full] at comes ⊢
      simp only [Build.choose, comes]
    · rw [if_neg full] at comes ⊢
      refine ⟨{ b with stage := .envSlot id, classes := cls :: after, chosen := b.chosen ++ added }, ?_, rfl, rfl, rfl, rfl, rfl,
        added, rfl, map, allNoted⟩
      simp only [Build.choose, comes, slotOffset]
  · obtain ⟨added, map, allNoted, passes⟩ := chooseAll_passes b.classes held
    have comes := passes [] b.chosen
    rw [List.append_nil, chooseAll] at comes
    refine ⟨added, map, allNoted, ?_⟩
    cases made : makePlan c o t0 t1 m b.entries (b.chosen ++ added) b.envelopes with
    | none => simp only [Build.choose, comes, made]
    | some p => simp only [Build.choose, comes, made]

/-! ### A read checked as it completes (R15) -/

theorem advance_spec (c : Setup) (o : Order) (t0 t1 : Nat) (d : List Byte) (b : Build) :
    let r := b.advance c o t0 t1 d
    (b.stage = .slot →
      (badSlot c.areaSize 32 (u32At d 0) → r = .fail .plan) ∧
      (¬badSlot c.areaSize 32 (u32At d 0) →
        r = .read { b with stage := .header (u32At d 0) } (u32At d 0) 32)) ∧
    (∀ off, b.stage = .header off →
      (¬goodMapHeader c.areaSize o off d → r = .fail .plan) ∧
      (goodMapHeader c.areaSize o off d → ∃ m : MapHeader,
        m.id = byteAt d 0 ∧ m.pinCount = u16At d 2 ∧ m.columns = byteAt d 4 ∧ m.rows = byteAt d 5 ∧
        m.seatMin = s32At d 8 ∧ m.seatMax = s32At d 12 ∧
        m.classDefault = (List.range 16).map (fun k => byteAt d (16 + k)) ∧
        r = .read { b with stage := .entries off, header := some m } (off + 32) (8 * m.pinCount))) ∧
    (∀ off m, b.stage = .entries off → b.header = some m →
      (¬goodEntries m d → r = .fail .plan) ∧
      (goodEntries m d → ∃ classes : List Nat, classes.Pairwise (· < ·) ∧
        (∀ k, k ∈ classes ↔ ∃ i, i < m.pinCount ∧ (entryAt d i).cls = k) ∧
        goesOnChoosing c o t0 t1 m
          { b with entries := (List.range m.pinCount).map (entryAt d), classes := classes } r)) ∧
    (∀ id, b.stage = .envSlot id →
      (badSlot c.areaSize 16 (u32At d 0) → r = .fail .plan) ∧
      (¬badSlot c.areaSize 16 (u32At d 0) →
        r = .read { b with stage := .envHeader id (u32At d 0) } (u32At d 0) 16)) ∧
    (∀ id off, b.stage = .envHeader id off →
      (¬goodEnvelopeHeader c.areaSize id off d → r = .fail .plan) ∧
      (goodEnvelopeHeader c.areaSize id off d →
        r = .read { b with stage := .envBands id off d } (off + 16) (16 * byteAt d 1))) ∧
    (∀ id off header m, b.stage = .envBands id off header → b.header = some m →
      (¬goodBands header d → r = .fail .plan) ∧
      (goodBands header d → goesOnChoosing c o t0 t1 m
        { b with envelopes := b.envelopes ++
          [{ id := byteAt header 0, engageMin := s32At header 4, buckleDrop := s32At header 8,
             bands := (List.range (byteAt header 1)).map (bandAt d) }] } r)) := by
  intro r
  refine ⟨fun stage => ?_, fun off stage => ?_, fun off m stage header => ?_, fun id stage => ?_, fun id off stage => ?_,
    fun id off head m stage header => ?_⟩
  · obtain ⟨bad, good⟩ := checkSlot_spec c.areaSize 32 (u32At d 0)
    refine ⟨fun fails => ?_, fun passes => ?_⟩
    · simp only [r, Build.advance, stage, bad fails]
    · simp only [r, Build.advance, stage, good passes]
  · obtain ⟨bad, good⟩ := checkMapHeader_spec c.areaSize o off d
    refine ⟨fun fails => ?_, fun passes => ⟨mapHeaderFields d, rfl, rfl, rfl, rfl, rfl, rfl, classDefault_eq d, ?_⟩⟩
    · simp only [r, Build.advance, stage, bad fails]
    · simp only [r, Build.advance, stage, good passes]
  · obtain ⟨bad, good⟩ := checkEntries_spec m d
    refine ⟨fun fails => ?_, fun passes => ?_⟩
    · simp only [r, Build.advance, stage, header, bad fails]
    · obtain ⟨ascending, used⟩ := classesUsed_spec passes
      refine ⟨classesUsed (entriesOf m d), ascending, used, ?_⟩
      simp only [r, Build.advance, stage, header, good passes]
      exact goesOnChoosing_choose ..
  · obtain ⟨bad, good⟩ := checkSlot_spec c.areaSize 16 (u32At d 0)
    refine ⟨fun fails => ?_, fun passes => ?_⟩
    · simp only [r, Build.advance, stage, bad fails]
    · simp only [r, Build.advance, stage, good passes]
  · have checks := checkEnvelopeHeader_iff c.areaSize id off d
    refine ⟨fun fails => ?_, fun passes => ?_⟩
    · simp only [r, Build.advance, stage]
      exact if_neg fun ok => fails (checks.mp ok)
    · simp only [r, Build.advance, stage]
      exact if_pos (checks.mpr passes)
  · obtain ⟨bad, good⟩ := checkEnvelope_spec head d
    refine ⟨fun fails => ?_, fun passes => ?_⟩
    · simp only [r, Build.advance, stage, header, bad fails]
    · simp only [r, Build.advance, stage, header, good passes]
      exact goesOnChoosing_choose ..

end Sys2Proof.Machine

/-! ## Pins placed, sorted and cut -/

namespace Sys2Proof.Machine

/-! ### Placing (R9 to R12) -/

theorem placeColumn_eq (o : Order) (t0 t1 l : Nat) : placeColumn o t0 t1 l =
    if l < t0 then some (o.head, l)
    else if o.ganged = true ∧ l < t0 + t1 then some (o.head.companion, l - t0)
    else none := by
  unfold placeColumn
  by_cases near : l < t0
  · rw [if_pos near, if_pos near]
  · have same : (o.ganged && decide (l - t0 < t1)) = true ↔ o.ganged = true ∧ l < t0 + t1 := by
      rw [Bool.and_eq_true, decide_eq_true_eq]
      exact and_congr_right fun _ => by omega
    rw [if_neg near, if_neg near]
    exact if_congr same rfl rfl

theorem placeColumn_head {o : Order} {t0 t1 l : Nat} {h : HeadId} {t : Nat} (placed : placeColumn o t0 t1 l = some (h, t)) :
    h = o.head ∨ o.ganged = true ∧ h = o.head.companion := by
  rw [placeColumn_eq] at placed
  by_cases near : l < t0
  · rw [if_pos near] at placed
    exact .inl (congrArg Prod.fst (Option.some.inj placed)).symm
  · rw [if_neg near] at placed
    by_cases far : o.ganged = true ∧ l < t0 + t1
    · rw [if_pos far] at placed
      exact .inr ⟨far.1, (congrArg Prod.fst (Option.some.inj placed)).symm⟩
    · rw [if_neg far] at placed
      cases placed

theorem placedOn_eq (o : Order) (m : MapHeader) (t0 t1 : Nat) (e : PinEntry) :
    placeColumn o t0 t1 (logicalColumn o.orientation m.columns e.column) = placedOn o m t0 t1 e := by
  have column : logicalColumn o.orientation m.columns e.column =
      if o.orientation = .turned then m.columns - 1 - e.column else e.column := by
    cases o.orientation <;> rfl
  rw [column, placeColumn_eq]
  rfl

section
variable {o : Order} {m : MapHeader} {t0 t1 : Nat} {chosen : List (Nat × Option Nat)}

/-- An entry as a placed pin. -/
def pinOf (chosen : List (Nat × Option Nat)) (i : Nat) (e : PinEntry) (at_ : HeadId × Nat) : PlacedPin :=
  { entry := i, engage := e.engage, head := at_.1, tine := at_.2, envelope := chosenFor chosen e.cls }

theorem placePins_cons (i : Nat) (e : PinEntry) (es : List PinEntry) : placePins o m t0 t1 chosen i (e :: es) =
    (placedOn o m t0 t1 e).bind fun at_ => (placePins o m t0 t1 chosen (i + 1) es).map fun rest => pinOf chosen i e at_ :: rest := by
  rw [placePins, placedOn_eq]
  cases placedOn o m t0 t1 e with
  | none => rfl
  | some at_ => cases placePins o m t0 t1 chosen (i + 1) es <;> rfl

theorem placePins_none : ∀ (es : List PinEntry) (i : Nat),
    placePins o m t0 t1 chosen i es = none ↔ ∃ e ∈ es, placedOn o m t0 t1 e = none
  | [], _ => iff_of_false nofun nofun
  | e :: es, i => by
    simp only [placePins_cons, List.mem_cons, exists_eq_or_imp, ← placePins_none es (i + 1)]
    cases placedOn o m t0 t1 e with
    | none => exact iff_of_true rfl (.inl rfl)
    | some at_ => simp

/-- The pins placed are the entries, in their order, each where it is placed. -/
inductive PinsOf (o : Order) (m : MapHeader) (t0 t1 : Nat) (chosen : List (Nat × Option Nat)) :
    Nat → List PinEntry → List PlacedPin → Prop
  | nil (i : Nat) : PinsOf o m t0 t1 chosen i [] []
  | cons {i : Nat} {e : PinEntry} {es : List PinEntry} {pins : List PlacedPin} {at_ : HeadId × Nat}
      (placed : placedOn o m t0 t1 e = some at_) (rest : PinsOf o m t0 t1 chosen (i + 1) es pins) :
      PinsOf o m t0 t1 chosen i (e :: es) (pinOf chosen i e at_ :: pins)

theorem placePins_pinsOf : ∀ (es : List PinEntry) (i : Nat) (pins : List PlacedPin),
    placePins o m t0 t1 chosen i es = some pins → PinsOf o m t0 t1 chosen i es pins
  | [], i, pins, is => by
    cases is
    exact .nil i
  | e :: es, i, pins, is => by
    rw [placePins_cons, Option.bind_eq_some_iff] at is
    obtain ⟨at_, placed, is⟩ := is
    obtain ⟨rest, goes, rfl⟩ := Option.map_eq_some_iff.mp is
    exact .cons placed (placePins_pinsOf es (i + 1) rest goes)

variable {i : Nat} {es : List PinEntry} {pins : List PlacedPin}

/-- A placed pin is that of the entry it names. -/
theorem PinsOf.entry (of : PinsOf o m t0 t1 chosen i es pins) {p : PlacedPin} (mem : p ∈ pins) :
    ∃ j e, p.entry = i + j ∧ es[j]? = some e ∧ placedOn o m t0 t1 e = some (p.head, p.tine) ∧ p.engage = e.engage ∧
      p.envelope = chosenFor chosen e.cls := by
  induction of with
  | nil => cases mem
  | @cons i e es pins at_ placed rest ih =>
    rcases List.mem_cons.mp mem with rfl | more
    · exact ⟨0, e, rfl, rfl, placed, rfl, rfl⟩
    · obtain ⟨j, e', entry, there, facts⟩ := ih more
      exact ⟨j + 1, e', by omega, there, facts⟩

/-- Every entry is placed. -/
theorem PinsOf.placed (of : PinsOf o m t0 t1 chosen i es pins) {j : Nat} {e : PinEntry} (there : es[j]? = some e) :
    ∃ p ∈ pins, p.entry = i + j ∧ placedOn o m t0 t1 e = some (p.head, p.tine) := by
  induction of generalizing j with
  | nil => cases there
  | @cons i e' es pins at_ placed rest ih =>
    cases j with
    | zero =>
      cases there
      exact ⟨_, List.mem_cons_self, rfl, placed⟩
    | succ j =>
      obtain ⟨p, mem, entry, is⟩ := ih there
      exact ⟨p, List.mem_cons_of_mem _ mem, by omega, is⟩

theorem PinsOf.entries (of : PinsOf o m t0 t1 chosen i es pins) : pins.map (·.entry) = List.range' i es.length := by
  induction of with
  | nil => rfl
  | cons placed rest ih => rw [List.map_cons, ih, List.length_cons, List.range'_succ]; rfl

theorem PinsOf.envelopes (of : PinsOf o m t0 t1 chosen i es pins) :
    pins.map (·.envelope) = es.map (fun e => chosenFor chosen e.cls) := by
  induction of with
  | nil => rfl
  | cons placed rest ih => rw [List.map_cons, ih]; rfl

end

/-- The copy noted for a class. -/
theorem chosenFor_of {chosen : List (Nat × Option Nat)} (once : (chosen.map (·.1)).Nodup) {cls : Nat} {k : Option Nat}
    (mem : (cls, k) ∈ chosen) : chosenFor chosen cls = k := by
  unfold chosenFor
  cases found : chosen.find? (fun e => e.1 = cls) with
  | none => exact absurd (List.find?_eq_none.mp found _ mem) (by simp)
  | some x =>
    have named : x.1 = cls := by simpa using List.find?_some found
    have same := List.inj_on_of_nodup_map once (List.mem_of_find?_eq_some found) mem named
    rw [same]
    rfl

/-! ### Sorting (R13) -/

/-- The order of the pins on a channel. -/
def PlacedPin.upTo (p x : PlacedPin) : Prop := p.engage < x.engage ∨ (p.engage = x.engage ∧ p.entry ≤ x.entry)

/-- The pins of a channel sorted. -/
def sortedPins (pins : List PlacedPin) : List PlacedPin := pins.foldr insertPin []

theorem insertPin_perm (p : PlacedPin) : ∀ xs : List PlacedPin, (insertPin p xs).Perm (p :: xs)
  | [] => .refl _
  | x :: xs => by
    rw [insertPin]
    split
    · exact .refl _
    · exact ((insertPin_perm p xs).cons x).trans (.swap p x xs)

theorem sortedPins_perm : ∀ pins : List PlacedPin, (sortedPins pins).Perm pins
  | [] => .refl _
  | p :: pins => (insertPin_perm p _).trans ((sortedPins_perm pins).cons p)

theorem insertPin_sorted (p : PlacedPin) : ∀ xs : List PlacedPin, xs.Pairwise PlacedPin.upTo →
    (insertPin p xs).Pairwise PlacedPin.upTo
  | [], _ => List.pairwise_singleton ..
  | x :: xs, sorted => by
    obtain ⟨least, rest⟩ := List.pairwise_cons.mp sorted
    rw [insertPin]
    split
    · next first =>
      refine List.pairwise_cons.mpr ⟨fun y mem => ?_, sorted⟩
      rcases List.mem_cons.mp mem with rfl | more
      · exact first
      · have := least y more
        unfold PlacedPin.upTo at this ⊢
        omega
    · next later =>
      refine List.pairwise_cons.mpr ⟨fun y mem => ?_, insertPin_sorted p xs rest⟩
      rcases List.mem_cons.mp ((insertPin_perm p xs).mem_iff.mp mem) with rfl | more
      · unfold PlacedPin.upTo
        omega
      · exact least y more

theorem sortedPins_sorted : ∀ pins : List PlacedPin, (sortedPins pins).Pairwise PlacedPin.upTo
  | [] => .nil
  | p :: pins => insertPin_sorted p _ (sortedPins_sorted pins)

/-! ### Cutting (R13) -/

/-- The engage depth a group begins at. -/
def startOf (ps : List PlacedPin) : Nat := (ps.head?.map (·.engage)).getD 0

/-- Pins cut into groups as R13 says. -/
structure WellCut (spacing : Nat) (gs : List (List PlacedPin)) : Prop where
  each : ∀ g ∈ gs, ∃ first rest, g = first :: rest ∧ ∀ p ∈ rest, p.engage < first.engage + spacing
  onward : gs.IsChain (fun g n => startOf g + spacing ≤ startOf n)

theorem cutGroups_filling (spacing : Nat) : ∀ (ps filling : List PlacedPin) (first : PlacedPin) (more : List PlacedPin),
    filling.reverse = first :: more → (∀ p ∈ more, p.engage < first.engage + spacing) →
    (cutGroups spacing first.engage filling ps).flatten = first :: more ++ ps ∧
    WellCut spacing (cutGroups spacing first.engage filling ps) ∧
    ∃ tail groups, cutGroups spacing first.engage filling ps = (first :: tail) :: groups := by
  have full : ∀ {filling : List PlacedPin} {first more}, filling.reverse = first :: more → ¬filling.isEmpty = true := by
    intro filling first more is empty
    rw [List.isEmpty_iff.mp empty] at is
    cases is
  intro ps
  induction ps with
  | nil =>
    intro filling first more is near
    rw [cutGroups, if_neg (full is), is]
    refine ⟨by simp, ⟨fun g mem => ?_, List.isChain_singleton _⟩, more, [], rfl⟩
    obtain rfl := List.mem_singleton.mp mem
    exact ⟨first, more, rfl, near⟩
  | cons p ps ih =>
    intro filling first more is near
    rw [cutGroups, if_neg (full is)]
    by_cases within : p.engage < first.engage + spacing
    · rw [if_pos within]
      obtain ⟨flat, cut, begins⟩ := ih (p :: filling) first (more ++ [p]) (by rw [List.reverse_cons, is]; rfl) (by
        intro q mem
        rcases List.mem_append.mp mem with old | new
        · exact near q old
        · rw [List.mem_singleton.mp new]
          exact within)
      exact ⟨by rw [flat]; simp, cut, begins⟩
    · rw [if_neg within, is]
      obtain ⟨flat, cut, tail, groups, begins⟩ := ih [p] p [] rfl nofun
      refine ⟨by rw [List.flatten_cons, flat]; simp, ⟨fun g mem => ?_, ?_⟩, more, _, rfl⟩
      · rcases List.mem_cons.mp mem with rfl | later
        · exact ⟨first, more, rfl, near⟩
        · exact cut.each g later
      · have chain := cut.onward
        rw [begins] at chain ⊢
        refine List.isChain_cons_cons.mpr ⟨?_, chain⟩
        show first.engage + spacing ≤ p.engage
        omega

theorem cutGroups_spec (spacing : Nat) : ∀ ps : List PlacedPin,
    (cutGroups spacing 0 [] ps).flatten = ps ∧ WellCut spacing (cutGroups spacing 0 [] ps)
  | [] => ⟨rfl, nofun, .nil⟩
  | p :: ps => by
    obtain ⟨flat, cut, _⟩ := cutGroups_filling spacing ps [p] p [] rfl nofun
    exact ⟨flat, cut⟩

end Sys2Proof.Machine

/-! ## The plan made -/

namespace Sys2Proof.Machine

section
variable {c : Setup} {o : Order} {m : MapHeader} {t0 t1 : Nat} {chosen : List (Nat × Option Nat)} {envs : List Envelope}
  {es : List PinEntry} {pins : List PlacedPin}

/-! ### The channels (R12, R20) -/

/-- The pins of one tine. -/
def pinsAt (pins : List PlacedPin) (h : HeadId) (t : Nat) : List PlacedPin := pins.filter (fun p => p.head = h && p.tine = t)

theorem mem_pinsAt {h : HeadId} {t : Nat} {p : PlacedPin} : p ∈ pinsAt pins h t ↔ p ∈ pins ∧ p.head = h ∧ p.tine = t := by
  simp only [pinsAt, List.mem_filter, Bool.and_eq_true, decide_eq_true_eq]

theorem channelOf_some {spacing : Nat} {h : HeadId} {t : Nat} {ch : PlanChannel} (is : channelOf spacing envs pins h t = some ch) :
    ch = { head := h, tine := t, lastTwo := []
           groups := (cutGroups spacing 0 [] (sortedPins (pinsAt pins h t))).map (groupOf envs) } := by
  unfold channelOf at is
  dsimp only at is
  split at is
  · cases is
  · exact (Option.some.inj is).symm

theorem channelOf_isSome {spacing : Nat} {p : PlacedPin} (mem : p ∈ pins) :
    ∃ ch, channelOf spacing envs pins p.head p.tine = some ch := by
  unfold channelOf
  dsimp only
  rw [if_neg]
  · exact ⟨_, rfl⟩
  · intro empty
    have here : p ∈ pinsAt pins p.head p.tine := mem_pinsAt.mpr ⟨mem, rfl, rfl⟩
    rw [pinsAt, List.isEmpty_iff.mp empty] at here
    cases here

theorem mem_planChannels {spacing : Nat} {ch : PlanChannel} : ch ∈ planChannels spacing envs o pins ↔
    ∃ h, (h = o.head ∨ o.ganged = true ∧ h = o.head.companion) ∧ ∃ t, t < 32 ∧ channelOf spacing envs pins h t = some ch := by
  have heads : ∀ h, h ∈ (if o.ganged then [o.head, o.head.companion] else [o.head]) ↔
      (h = o.head ∨ o.ganged = true ∧ h = o.head.companion) := fun h => by
    cases o.ganged <;> simp
  simp only [planChannels, List.mem_flatten, List.mem_map, exists_exists_and_eq_and, heads, List.mem_filterMap, List.mem_range]

/-! ### A channel's groups (R13, R16) -/

theorem groupOf_pins (ps : List PlacedPin) : (groupOf envs ps).pins = ps.map (·.entry) := by
  simp only [Group.pins, groupOf, List.map_map]
  rfl

/-- The engage depth of an entry. -/
def entryDepth (es : List PinEntry) (i : Nat) : Nat := (es[i]?.map (·.engage)).getD 0

theorem PinsOf.depth (of : PinsOf o m t0 t1 chosen 0 es pins) {p : PlacedPin} (mem : p ∈ pins) :
    entryDepth es p.entry = p.engage := by
  obtain ⟨j, e, entry, there, _, engage, _⟩ := of.entry mem
  rw [entryDepth, entry, Nat.zero_add, there, engage]
  rfl

theorem PinsOf.distinct (of : PinsOf o m t0 t1 chosen 0 es pins) : pins.Pairwise (fun p x => p.entry ≠ x.entry) := by
  have once : (pins.map (·.entry)).Nodup := by
    rw [of.entries]
    exact List.nodup_range'
  exact List.pairwise_map.mp once

/-- The pins of a channel in their order. -/
def channelPins (pins : List PlacedPin) (h : HeadId) (t : Nat) : List PlacedPin := sortedPins (pinsAt pins h t)

theorem mem_channelPins {h : HeadId} {t : Nat} {p : PlacedPin} :
    p ∈ channelPins pins h t ↔ p ∈ pins ∧ p.head = h ∧ p.tine = t :=
  (sortedPins_perm _).mem_iff.trans mem_pinsAt

theorem channelPins_ordered (of : PinsOf o m t0 t1 chosen 0 es pins) (h : HeadId) (t : Nat) :
    (channelPins pins h t).Pairwise
      (fun p x => entryDepth es p.entry < entryDepth es x.entry ∨ entryDepth es p.entry = entryDepth es x.entry ∧ p.entry < x.entry) := by
  have distinct : (channelPins pins h t).Pairwise (fun p x => p.entry ≠ x.entry) :=
    (sortedPins_perm _).symm.pairwise (of.distinct.filter _) Ne.symm
  refine (distinct.and (sortedPins_sorted _)).imp_of_mem fun {p x} hp hx both => ?_
  obtain ⟨apart, upTo⟩ := both
  rw [of.depth (mem_channelPins.mp hp).1, of.depth (mem_channelPins.mp hx).1]
  unfold PlacedPin.upTo at upTo
  omega

theorem channel_cutAsR13 (of : PinsOf o m t0 t1 chosen 0 es pins) {h : HeadId} {t : Nat} {ch : PlanChannel}
    (is : channelOf c.groupSpacing envs pins h t = some ch) : cutAsR13 c o m t0 t1 es ch := by
  obtain rfl := channelOf_some is
  obtain ⟨flat, cut⟩ := cutGroups_spec c.groupSpacing (channelPins pins h t)
  let cuts := cutGroups c.groupSpacing 0 [] (channelPins pins h t)
  have entries : ((cuts.map (groupOf envs)).map Group.pins).flatten = (channelPins pins h t).map (·.entry) := by
    rw [List.map_map, ← flat, List.map_flatten]
    exact congrArg List.flatten (List.map_congr_left fun ps _ => groupOf_pins ps)
  have inCuts : ∀ {ps : List PlacedPin}, ps ∈ cuts → ∀ {p}, p ∈ ps → p ∈ pins := fun {ps} member {p} mem => by
    have here : p ∈ cuts.flatten := List.mem_flatten.mpr ⟨ps, member, mem⟩
    rw [flat] at here
    exact (mem_channelPins.mp here).1
  refine ⟨fun i => ?_, ?_, fun g mem => ?_, fun i g next here there => ?_, rfl⟩
  · show i ∈ ((cuts.map (groupOf envs)).map Group.pins).flatten ↔ _
    rw [entries, List.mem_map]
    constructor
    · rintro ⟨p, mem, rfl⟩
      obtain ⟨mine, rfl, rfl⟩ := mem_channelPins.mp mem
      obtain ⟨j, e, entry, there, placed, _⟩ := of.entry mine
      exact ⟨e, by rw [entry, Nat.zero_add]; exact there, placed⟩
    · rintro ⟨e, there, placed⟩
      obtain ⟨p, mem, entry, is⟩ := of.placed there
      have same := Option.some.inj (is.symm.trans placed)
      exact ⟨p, mem_channelPins.mpr ⟨mem, congrArg Prod.fst same, congrArg Prod.snd same⟩, by omega⟩
  · show (((cuts.map (groupOf envs)).map Group.pins).flatten).Pairwise _
    rw [entries, List.pairwise_map]
    exact channelPins_ordered of h t
  · obtain ⟨ps, member, rfl⟩ := List.mem_map.mp mem
    obtain ⟨first, rest, rfl, near⟩ := cut.each ps member
    refine ⟨first.entry, rest.map (·.entry), groupOf_pins _, ?_, fun i listed => ?_, rfl, rfl, rfl, rfl, rfl, rfl, rfl, rfl, rfl⟩
    · exact (of.depth (inCuts member List.mem_cons_self)).symm
    · obtain ⟨p, mem, rfl⟩ := List.mem_map.mp listed
      have depth := of.depth (inCuts member (List.mem_cons_of_mem _ mem))
      exact lt_of_eq_of_lt depth (near p mem)
  · obtain ⟨a, first, rfl⟩ := List.getElem?_map .. ▸ here |> Option.map_eq_some_iff.mp
    obtain ⟨b, second, rfl⟩ := List.getElem?_map .. ▸ there |> Option.map_eq_some_iff.mp
    obtain ⟨_, rfl⟩ := List.getElem?_eq_some_iff.mp first
    obtain ⟨bound, rfl⟩ := List.getElem?_eq_some_iff.mp second
    exact List.isChain_iff_getElem.mp cut.onward i bound

/-- A member stands for a pin placed. -/
theorem channel_members {spacing : Nat} {h : HeadId} {t : Nat} {ch : PlanChannel} (is : channelOf spacing envs pins h t = some ch) :
    ∀ g ∈ ch.groups, ∀ mb ∈ g.members, ∃ p ∈ pins, mb = p.member envs := by
  obtain rfl := channelOf_some is
  intro g mem mb member
  obtain ⟨ps, listed, rfl⟩ := List.mem_map.mp mem
  obtain ⟨p, here, rfl⟩ := List.mem_map.mp member
  have inside : p ∈ (cutGroups spacing 0 [] (channelPins pins h t)).flatten := List.mem_flatten.mpr ⟨ps, listed, here⟩
  rw [(cutGroups_spec spacing (channelPins pins h t)).1] at inside
  exact ⟨p, (mem_channelPins.mp inside).1, rfl⟩

theorem member_fresh (p : PlacedPin) : (p.member envs).envelope = p.envelope ∧ (p.member envs).entry = p.entry ∧
    ((p.member envs).judgedOn envs = none → (p.member envs).counts = []) ∧
    (∀ e, (p.member envs).judgedOn envs = some e → (p.member envs).counts = e.bands.map (fun _ => 0)) := by
  have judged : (p.member envs).judgedOn envs = p.envelope.bind (envs[·]?) := rfl
  refine ⟨rfl, rfl, fun unjudged => ?_, fun e on => ?_⟩
  · rw [judged] at unjudged
    simp only [PlacedPin.member, unjudged]
  · rw [judged] at on
    simp only [PlacedPin.member, on, List.map_const']

/-! ### The totals (R41) -/

theorem unjudged_count (of : PinsOf o m t0 t1 chosen 0 es pins) (once : (chosen.map (·.1)).Nodup)
    (every : ∀ e ∈ es, ∃ k, (e.cls, k) ∈ chosen) :
    pins.countP (fun p => p.envelope.isNone) = es.countP (fun e => decide ((e.cls, none) ∈ chosen)) := by
  have mapped : pins.countP (fun p => p.envelope.isNone) = es.countP (fun e => (chosenFor chosen e.cls).isNone) := by
    have both := congrArg (List.countP Option.isNone) of.envelopes
    rw [List.countP_map, List.countP_map] at both
    exact both
  rw [mapped]
  refine List.countP_congr fun e mem => ?_
  obtain ⟨k, noted⟩ := every e mem
  rw [chosenFor_of once noted, Option.isNone_iff_eq_none, decide_eq_true_eq]
  constructor
  · rintro rfl
    exact noted
  · intro bare
    exact (chosenFor_of once noted).symm.trans (chosenFor_of once bare)

end

/-- The plan made of the entries and the envelopes chosen (R12, R13, R16). -/
theorem makePlan_planMade (c : Setup) (o : Order) (t0 t1 : Nat) (m : MapHeader) (es : List PinEntry)
    (chosen : List (Nat × Option Nat)) (envs : List Envelope) :
    planMade c o t0 t1 m es chosen envs (makePlan c o t0 t1 m es chosen envs) := by
  have beyond := placePins_none (o := o) (m := m) (t0 := t0) (t1 := t1) (chosen := chosen) es 0
  unfold makePlan
  cases placing : placePins o m t0 t1 chosen 0 es with
  | none => exact ⟨iff_of_true rfl (beyond.mp placing), nofun⟩
  | some pins =>
    have of := placePins_pinsOf es 0 pins placing
    refine ⟨iff_of_false nofun fun lost => ?_, fun p is => ?_⟩
    · cases (beyond.mpr lost).symm.trans placing
    obtain rfl := Option.some.inj is
    refine ⟨rfl, rfl, rfl, rfl, rfl, rfl, unjudged_count of, fun ch mem => ?_, fun e mem h tine placed bound => ?_,
      fun ch mem g group mb member e there => ?_⟩
    · obtain ⟨h, _, t, _, channel⟩ := mem_planChannels.mp mem
      exact channel_cutAsR13 of channel
    · obtain ⟨j, bound', rfl⟩ := List.getElem_of_mem mem
      obtain ⟨p, pin, _, where_⟩ := of.placed (List.getElem?_eq_getElem bound')
      have same := Option.some.inj (where_.symm.trans placed)
      obtain ⟨ch, channel⟩ := channelOf_isSome (spacing := c.groupSpacing) (envs := envs) pin
      rw [show p.head = h from congrArg Prod.fst same, show p.tine = tine from congrArg Prod.snd same] at channel
      refine ⟨ch, mem_planChannels.mpr ⟨h, ?_, tine, bound, channel⟩, ?_, ?_⟩
      · rw [← placedOn_eq] at placed
        exact placeColumn_head placed
      · rw [channelOf_some channel]
      · rw [channelOf_some channel]
    · obtain ⟨h, _, t, _, channel⟩ := mem_planChannels.mp mem
      obtain ⟨p, pin, rfl⟩ := channel_members channel g group mb member
      obtain ⟨envelope, entry, none, some⟩ := member_fresh (envs := envs) p
      obtain ⟨j, e', at_, there', _, _, noted⟩ := of.entry pin
      rw [entry, at_, Nat.zero_add, there'] at there
      obtain rfl := Option.some.inj there
      refine ⟨fun k once mem => ?_, ?_, rfl, rfl, rfl, rfl, rfl⟩
      · rw [envelope, noted]
        exact chosenFor_of once mem
      · cases judged : (p.member envs).judgedOn envs with
        | none => exact none judged
        | some env => exact some env judged

/-- Settles O48. -/
theorem planReadsBuildThePlan : Obligations.PlanReadsBuildThePlan :=
  ⟨fun _ _ _ _ flight state order loading unfixed intact => planReadDone_spec flight state order loading unfixed intact,
    advance_spec, makePlan_planMade⟩

end Sys2Proof.Machine

/-! ## The steps due of themselves -/

namespace Sys2Proof.Machine

/-! ### Lines (R128, R129) -/

theorem mem_dueIf {b : Bool} {i j : Instr} : i ∈ dueIf b j ↔ b = true ∧ i = j := by
  cases b <;> simp [dueIf]

theorem line_changed_iff (l : Line) : l.changed = true ↔ l.raw ≠ l.level ∧ 3 ≤ l.count := by
  simp only [Line.changed, Bool.and_eq_true, decide_eq_true_eq]

theorem line_shows_true (l : Line) : (l.changed && l.raw) = true ↔ l.shows true := by
  rw [Bool.and_eq_true, line_changed_iff, Line.shows]
  cases l.raw <;> cases l.level <;> simp

theorem line_shows_false (l : Line) : (l.changed && !l.raw) = true ↔ l.shows false := by
  rw [Bool.and_eq_true, line_changed_iff, Line.shows]
  cases l.raw <;> cases l.level <;> simp

theorem line_asserted_iff (l : Line) : l.asserted = true ↔ l.level = false ∧ l.raw = true ∧ 1 ≤ l.count := by
  simp only [Line.asserted, Bool.and_eq_true, decide_eq_true_eq, Bool.not_eq_true', and_assoc]
  exact and_left_comm

/-- The level a line has after its sample. -/
def levelAfter (l : Line) : Bool := if l.raw ≠ l.level ∧ 3 ≤ l.count then l.raw else l.level

theorem line_sampled_eq (l : Line) : l.sampled = levelAfter l :=
  if_congr (line_changed_iff l) rfl rfl

theorem maskBits_iff (i : Inputs) (mask : BitVec 4) :
    mask = i.maskBits ↔ ∀ n : HeadId, mask.getLsbD n.toNat = (i.masks.get n).level := by
  have bits : ∀ a b c d : Bool, ∀ n : HeadId,
      (BitVec.ofNat 4 (bit a 0 + bit b 1 + bit c 2 + bit d 3)).getLsbD n.toNat = (⟨a, b, c, d⟩ : Four Bool).get n := by
    intro a b c d n
    cases a <;> cases b <;> cases c <;> cases d <;> cases n <;> rfl
  have own : ∀ n : HeadId, i.maskBits.getLsbD n.toNat = (i.masks.get n).level := fun n => by
    rw [Inputs.maskBits, bits]
    cases n <;> rfl
  refine ⟨fun same n => by rw [same]; exact own n, fun each => BitVec.eq_of_getLsbD_eq fun k bound => ?_⟩
  have all : ∀ n : HeadId, mask.getLsbD n.toNat = i.maskBits.getLsbD n.toNat := fun n => (each n).trans (own n).symm
  match k, bound with
  | 0, _ => exact all .h0
  | 1, _ => exact all .h1
  | 2, _ => exact all .h2
  | 3, _ => exact all .h3

/-! ### What is due, list by list -/

section
variable {s : State} {i : Instr}

/-- A button has been released at the sample, one has been pressed. -/
def buttonFalls (n : Inputs) : Prop :=
  n.startA.level = true ∧ levelAfter n.startA = false ∨ n.startB.level = true ∧ levelAfter n.startB = false

def buttonRises (n : Inputs) : Prop :=
  n.startA.level = false ∧ levelAfter n.startA = true ∨ n.startB.level = false ∧ levelAfter n.startB = true

theorem mem_inputsDue {n : Inputs} : i ∈ n.due ↔
    n.estop.level = false ∧ n.estop.raw = true ∧ 1 ≤ n.estop.count ∧ i = .estopAssert ∨ n.estop.shows false ∧ i = .estopRelease ∨
    n.guard.shows true ∧ i = .guardOpen ∨ n.guard.shows false ∧ i = .guardClose ∨
    buttonFalls n ∧ i = .startRelease (levelAfter n.startA) (levelAfter n.startB) ∨
    buttonRises n ∧ ¬buttonFalls n ∧ i = .startPress (levelAfter n.startA) (levelAfter n.startB) n.maskBits := by
  have falls : (n.startA.level && !n.startA.sampled || n.startB.level && !n.startB.sampled) = true ↔ buttonFalls n := by
    simp only [line_sampled_eq, Bool.or_eq_true, Bool.and_eq_true, Bool.not_eq_true', buttonFalls]
  have rises : (!n.startA.level && n.startA.sampled || !n.startB.level && n.startB.sampled) = true ↔ buttonRises n := by
    simp only [line_sampled_eq, Bool.or_eq_true, Bool.and_eq_true, Bool.not_eq_true', buttonRises]
  have still : (!(n.startA.level && !n.startA.sampled || n.startB.level && !n.startB.sampled)) = true ↔ ¬buttonFalls n := by
    rw [← falls, Bool.not_eq_true', Bool.not_eq_true]
  unfold Inputs.due
  dsimp only
  simp only [List.mem_append, mem_dueIf, or_assoc, line_asserted_iff, line_shows_true, line_shows_false, falls, and_assoc]
  simp only [Bool.and_eq_true, rises, still, and_assoc]
  simp only [line_sampled_eq]

/-- A head's messages to the arbiter that are due. -/
def State.claimDues (s : State) (h : HeadId) : List Instr :=
  match s.claimMsgs.get h with
  | [] => []
  | .request _ _ _ :: _ => [.claimRequest h]
  | .withdraw :: _ => [.claimWithdraw h]
  | .release :: _ => [.claimRelease h]

theorem claimDues_claims {h : HeadId} (due : i ∈ s.claimDues h) : i = .claimRequest h ∨ i = .claimWithdraw h ∨ i = .claimRelease h := by
  unfold State.claimDues at due
  split at due
  · cases due
  · exact .inl (List.mem_singleton.mp due)
  · exact .inr (.inl (List.mem_singleton.mp due))
  · exact .inr (.inr (List.mem_singleton.mp due))

theorem dueAt_eq (s : State) (h : HeadId) : s.dueAt h = s.inputs.dueAt h ++
    dueIf ((s.head h).guardArmed && (s.head h).guardCount = 0) (.strokeGuardExpire h) ++
    dueIf ((s.head h).state = .dwell && (s.head h).dwell = some 0) (.dwellExpire h) ++
    dueIf ((s.sense h).tare.isSome && !s.taring h) (.tareComplete h) ++ s.claimDues h ++
    dueIf (s.grants.get h).isSome (.claimGrant h) ++ dueIf (s.takeable h).isSome (.takeOrder h) := rfl

theorem tareDone_iff (s : State) (h : HeadId) : ((s.sense h).tare.isSome && !s.taring h) = true ↔
    ∃ w, (s.sense h).tare = some w ∧ 2 ^ s.setup.tareAverage ≤ w.taken := by
  unfold State.taring
  cases (s.sense h).tare with
  | none => simp
  | some w =>
    simp only [Option.isSome_some, Bool.true_and, Bool.not_eq_true', Option.some.injEq, exists_eq_left']
    exact decide_eq_false_iff_not.trans Nat.not_lt

/-- What is due at a head by its lines, its guard, its dwell and its tare. -/
def headDue (s : State) (h : HeadId) (i : Instr) : Prop :=
  (s.inputs.posReady.get h).shows true ∧ i = .posReadyRise h ∨ (s.inputs.posReady.get h).shows false ∧ i = .posReadyFall h ∨
  (s.inputs.ramTop.get h).shows true ∧ i = .ramTopRise h ∨ (s.inputs.ramTop.get h).shows false ∧ i = .ramTopFall h ∨
  (s.inputs.toolPresent.get h).shows true ∧ i = .toolAttach h ∨ (s.inputs.toolPresent.get h).shows false ∧ i = .toolRemoval h ∨
  (s.head h).guardArmed = true ∧ (s.head h).guardCount = 0 ∧ i = .strokeGuardExpire h ∨
  (s.head h).state = .dwell ∧ (s.head h).dwell = some 0 ∧ i = .dwellExpire h ∨
  (∃ w, (s.sense h).tare = some w ∧ 2 ^ s.setup.tareAverage ≤ w.taken) ∧ i = .tareComplete h

/-- The steps that an order or the arbiter brings at a head. -/
def State.orderDues (s : State) (h : HeadId) : List Instr :=
  s.claimDues h ++ dueIf (s.grants.get h).isSome (.claimGrant h) ++ dueIf (s.takeable h).isSome (.takeOrder h)

theorem mem_dueAt {h : HeadId} : i ∈ s.dueAt h ↔ headDue s h i ∨ i ∈ s.orderDues h := by
  rw [dueAt_eq]
  unfold Inputs.dueAt headDue State.orderDues
  dsimp only
  simp only [List.mem_append, mem_dueIf, line_shows_true, line_shows_false, tareDone_iff, or_assoc]
  simp only [Bool.and_eq_true, decide_eq_true_eq, and_assoc]

/-- Steps due that are no line's, no head's, no timer's. -/
def State.otherDues (s : State) : List Instr :=
  dueIf s.stopDone .stopComplete ++ dueIf (s.control.device = .fault && !s.control.run && s.faultQuiet) .faultExit ++
  dueIf s.startDue .startingEntry ++
  dueIf (s.toolBus.transaction.isNone && s.toolBus.idleNeeded ≤ s.toolBus.idle && s.nextToolHead.isSome) (.toolBusGrant 0)

theorem pairExpired_iff (p : Pair) : p.expired = true ↔ ∃ b window, p = .oneDown b window ∧ 500 < window := by
  cases p <;> simp [Pair.expired]

theorem mem_due : i ∈ s.due ↔ i ∈ s.inputs.due ∨ (∃ h, i ∈ s.dueAt h) ∨
    (∃ b window, s.inputs.pair = .oneDown b window ∧ 500 < window) ∧ i = .pairWindowExpire ∨
    s.reader.state = .waiting ∧ s.reader.poll = some 0 ∧ i = .pollTimerExpire ∨ i ∈ s.otherDues := by
  have heads : i ∈ (HeadId.all.map s.dueAt).flatten ↔ ∃ h, i ∈ s.dueAt h := by
    simp only [List.mem_flatten, List.mem_map, exists_exists_and_eq_and]
    exact ⟨fun ⟨h, _, due⟩ => ⟨h, due⟩, fun ⟨h, due⟩ => ⟨h, h.mem_all, due⟩⟩
  unfold State.due State.otherDues
  simp only [List.mem_append, heads, mem_dueIf, pairExpired_iff, Bool.and_eq_true, decide_eq_true_eq, or_assoc, and_assoc]

/-- The commands that lines and timers bring. -/
def Instr.timely : Instr → Bool
  | .claimRequest _ | .claimWithdraw _ | .claimRelease _ | .claimGrant _ | .takeOrder _ | .stopComplete | .faultExit
  | .startingEntry | .toolBusGrant _ => false
  | _ => true

theorem orderDues_untimely {h : HeadId} (due : i ∈ s.orderDues h) : Instr.timely i = false := by
  simp only [State.orderDues, List.mem_append, mem_dueIf] at due
  rcases due with (claim | ⟨_, rfl⟩) | ⟨_, rfl⟩
  · rcases claimDues_claims claim with rfl | rfl | rfl <;> rfl
  · rfl
  · rfl

theorem otherDues_untimely (due : i ∈ s.otherDues) : Instr.timely i = false := by
  simp only [State.otherDues, List.mem_append, mem_dueIf] at due
  rcases due with ((⟨_, rfl⟩ | ⟨_, rfl⟩) | ⟨_, rfl⟩) | ⟨_, rfl⟩ <;> rfl

theorem mem_due_timely (timely : Instr.timely i = true) : i ∈ s.due ↔ i ∈ s.inputs.due ∨ (∃ h, headDue s h i) ∨
    (∃ b window, s.inputs.pair = .oneDown b window ∧ 500 < window) ∧ i = .pairWindowExpire ∨
    s.reader.state = .waiting ∧ s.reader.poll = some 0 ∧ i = .pollTimerExpire := by
  have order : ∀ h, i ∉ s.orderDues h := fun h due => by
    rw [orderDues_untimely due] at timely
    cases timely
  have other : i ∉ s.otherDues := fun due => by
    rw [otherDues_untimely due] at timely
    cases timely
  simp only [mem_due, mem_dueAt, order, other, or_false]

/-! ### What is due, command by command -/

theorem due_shared : (.estopAssert ∈ s.due ↔ s.inputs.estop.level = false ∧ s.inputs.estop.raw = true ∧ 1 ≤ s.inputs.estop.count) ∧
    (.estopRelease ∈ s.due ↔ s.inputs.estop.shows false) ∧ (.guardOpen ∈ s.due ↔ s.inputs.guard.shows true) ∧
    (.guardClose ∈ s.due ↔ s.inputs.guard.shows false) ∧
    (∀ a b, .startRelease a b ∈ s.due ↔ buttonFalls s.inputs ∧ a = levelAfter s.inputs.startA ∧ b = levelAfter s.inputs.startB) ∧
    (∀ a b mask, .startPress a b mask ∈ s.due ↔ buttonRises s.inputs ∧ ¬buttonFalls s.inputs ∧
      a = levelAfter s.inputs.startA ∧ b = levelAfter s.inputs.startB ∧ mask = s.inputs.maskBits) := by
  refine ⟨(mem_due_timely rfl).trans ?_, (mem_due_timely rfl).trans ?_, (mem_due_timely rfl).trans ?_,
    (mem_due_timely rfl).trans ?_, fun a b => (mem_due_timely rfl).trans ?_, fun a b mask => (mem_due_timely rfl).trans ?_⟩
  all_goals simp only [mem_inputsDue, headDue, reduceCtorEq, Instr.startRelease.injEq, Instr.startPress.injEq, and_false, and_true,
    or_false, false_or, exists_false]

theorem due_head (h : HeadId) : (.posReadyRise h ∈ s.due ↔ (s.inputs.posReady.get h).shows true) ∧
    (.posReadyFall h ∈ s.due ↔ (s.inputs.posReady.get h).shows false) ∧
    (.ramTopRise h ∈ s.due ↔ (s.inputs.ramTop.get h).shows true) ∧
    (.ramTopFall h ∈ s.due ↔ (s.inputs.ramTop.get h).shows false) ∧
    (.toolAttach h ∈ s.due ↔ (s.inputs.toolPresent.get h).shows true) ∧
    (.toolRemoval h ∈ s.due ↔ (s.inputs.toolPresent.get h).shows false) ∧
    (.strokeGuardExpire h ∈ s.due ↔ (s.head h).guardArmed = true ∧ (s.head h).guardCount = 0) ∧
    (.dwellExpire h ∈ s.due ↔ (s.head h).state = .dwell ∧ (s.head h).dwell = some 0) ∧
    (.tareComplete h ∈ s.due ↔ ∃ w, (s.sense h).tare = some w ∧ 2 ^ s.setup.tareAverage ≤ w.taken) := by
  refine ⟨(mem_due_timely rfl).trans ?_, (mem_due_timely rfl).trans ?_, (mem_due_timely rfl).trans ?_,
    (mem_due_timely rfl).trans ?_, (mem_due_timely rfl).trans ?_, (mem_due_timely rfl).trans ?_, (mem_due_timely rfl).trans ?_,
    (mem_due_timely rfl).trans ?_, (mem_due_timely rfl).trans ?_⟩
  all_goals simp only [mem_inputsDue, headDue, reduceCtorEq, Instr.posReadyRise.injEq, Instr.posReadyFall.injEq,
    Instr.ramTopRise.injEq, Instr.ramTopFall.injEq, Instr.toolAttach.injEq, Instr.toolRemoval.injEq,
    Instr.strokeGuardExpire.injEq, Instr.dwellExpire.injEq, Instr.tareComplete.injEq, and_false, or_false, false_or, ← and_assoc,
    exists_eq_right']

theorem due_timers : (.pairWindowExpire ∈ s.due ↔ ∃ b window, s.inputs.pair = .oneDown b window ∧ 500 < window) ∧
    (.pollTimerExpire ∈ s.due ↔ s.reader.state = .waiting ∧ s.reader.poll = some 0) := by
  refine ⟨(mem_due_timely rfl).trans ?_, (mem_due_timely rfl).trans ?_⟩
  all_goals simp only [mem_inputsDue, headDue, reduceCtorEq, and_false, and_true, or_false, false_or, exists_false]

end

/-- What is due of itself is as `duesOf` spells it. -/
theorem due_duesOf (s : State) : duesOf s := by
  obtain ⟨asserted, released, opened, closed, falls, rises⟩ := due_shared (s := s)
  obtain ⟨pair, poll⟩ := due_timers (s := s)
  refine ⟨asserted, released, opened, closed, fun a b => (falls a b).trans ?_, fun a b mask => (rises a b mask).trans ?_,
    due_head, pair, poll⟩
  · exact ⟨fun ⟨down, one, two⟩ => ⟨one, two, down⟩, fun ⟨one, two, down⟩ => ⟨down, one, two⟩⟩
  · rw [maskBits_iff]
    exact ⟨fun ⟨up, still, one, two, bits⟩ => ⟨one, two, up, still, bits⟩, fun ⟨one, two, up, still, bits⟩ => ⟨up, still, one, two, bits⟩⟩

end Sys2Proof.Machine

/-! ## A period of the filter clock -/

namespace Sys2Proof.Machine

/-! ### The encoder filters (R76) -/

theorem filter_edge (n : Sense) (a b : Bool) (edge : EncoderEdge) : (n.filter a b).2 = some edge ↔
    ((edge = .lineA ∨ edge = .both) ↔ a ≠ n.levelA ∧ n.seenA = true) ∧
    ((edge = .lineB ∨ edge = .both) ↔ b ≠ n.levelB ∧ n.seenB = true) := by
  rw [(filter_spec n a b).2]
  by_cases onA : a ≠ n.levelA ∧ n.seenA = true
  · by_cases onB : b ≠ n.levelB ∧ n.seenB = true
    · rw [if_pos onA, if_pos onB, iff_true_right onA, iff_true_right onB]
      cases edge <;> simp
    · rw [if_pos onA, if_neg onB, iff_true_right onA, iff_false_right onB]
      cases edge <;> simp
  · by_cases onB : b ≠ n.levelB ∧ n.seenB = true
    · rw [if_neg onA, if_pos onB, iff_false_right onA, iff_true_right onB]
      cases edge <;> simp
    · rw [if_neg onA, if_neg onB, iff_false_right onA, iff_false_right onB]
      cases edge <;> simp

/-- A front-end after its filters' sample. -/
def filtered (free : Nat) (s : State) (h : HeadId) : Sense :=
  ((s.sense h).filter ((bitsFrom free 0).get h) ((bitsFrom free 4).get h)).1

/-- The edges of a period. -/
def State.edges (s : State) (free : Nat) : List Instr := (HeadId.all.map (s.edgesAt free)).flatten

theorem filterPeriod_spec (free : Nat) (s : State) : ∃ n, (∀ h, Four.get n h = filtered free s h) ∧
    filterPeriod free s = { s with senses := n, toolBus := s.toolBus.idled, pending := s.edges free } := by
  obtain ⟨n, is⟩ := filterHeads_eq free HeadId.all s
  refine ⟨n, fun h => ?_, by rw [filterPeriod, is, State.edges]⟩
  have sensed := eachHead_modSense (fun h n => (n.filter ((bitsFrom free 0).get h) ((bitsFrom free 4).get h)).1) HeadId.all s
    (by decide) h
  rw [if_pos h.mem_all] at sensed
  have same : (eachHead (filterHead free) HeadId.all s).sense h = n.get h := by rw [is]; rfl
  exact same.symm.trans sensed

theorem mem_edges {i : Instr} {s : State} {free : Nat} : i ∈ s.edges free ↔
    ∃ h edge, ((s.sense h).filter ((bitsFrom free 0).get h) ((bitsFrom free 4).get h)).2 = some edge ∧
      i = .acceptedEdge h edge ⟨(bitsFrom free 8).get h, (bitsFrom free 12).get h⟩ := by
  have own : ∀ h, i ∈ s.edgesAt free h ↔
      ∃ edge, ((s.sense h).filter ((bitsFrom free 0).get h) ((bitsFrom free 4).get h)).2 = some edge ∧
        i = .acceptedEdge h edge ⟨(bitsFrom free 8).get h, (bitsFrom free 12).get h⟩ := fun h => by
    unfold State.edgesAt
    cases ((s.sense h).filter ((bitsFrom free 0).get h) ((bitsFrom free 4).get h)).2 with
    | none => exact iff_of_false nofun (fun ⟨_, same, _⟩ => nomatch same)
    | some edge => simp only [List.mem_singleton, Option.some.injEq, exists_eq_left']
  simp only [State.edges, List.mem_flatten, List.mem_map, exists_exists_and_eq_and, own]
  exact ⟨fun ⟨h, _, due⟩ => ⟨h, due⟩, fun ⟨h, due⟩ => ⟨h, h.mem_all, due⟩⟩

/-! ### The timed scans and the guards of a tick (R79, R83) -/

theorem taring_iff (s : State) (h : HeadId) : s.taring h = true ↔
    ∃ w, (s.sense h).tare = some w ∧ w.taken < 2 ^ s.setup.tareAverage := by
  unfold State.taring
  cases (s.sense h).tare with
  | none => exact iff_of_false nofun nofun
  | some w =>
    simp only [Option.some.injEq, exists_eq_left']
    exact decide_eq_true_iff

theorem dwelling_iff (s : State) (h : HeadId) : s.dwelling h = true ↔
    s.leads h = true ∧ (s.head h).state = .dwell ∧ ∃ n, (s.head h).dwell = some (n + 1) := by
  unfold State.dwelling
  cases (s.head h).dwell with
  | none => simp
  | some n => cases n <;> simp

theorem scanWanted_iff (s : State) (h : HeadId) : (s.taring h || s.dwelling h) = true ↔ scanWanted s h := by
  rw [Bool.or_eq_true, taring_iff, dwelling_iff, scanWanted]

theorem mem_timedScans {i : Instr} {s : State} : i ∈ s.timedScans ↔ ∃ h, scanWanted s h ∧ i = .timedScanTick h := by
  simp only [State.timedScans, List.mem_flatten, List.mem_map, exists_exists_and_eq_and, mem_dueIf, scanWanted_iff]
  exact ⟨fun ⟨h, _, due⟩ => ⟨h, due⟩, fun ⟨h, due⟩ => ⟨h, h.mem_all, due⟩⟩

theorem of_mem_guardsFirst {i : Instr} {s : State} {free : Nat} (mem : i ∈ s.guardsFirst free) :
    ∃ h, i = .strokeGuardExpire h ∧ (s.head h).guardArmed = true ∧ (s.head h).guardCount = 0 := by
  simp only [State.guardsFirst, List.mem_flatten, List.mem_map, exists_exists_and_eq_and, mem_dueIf, Bool.and_eq_true,
    decide_eq_true_eq] at mem
  obtain ⟨h, _, ⟨⟨armed, zero⟩, _⟩, is⟩ := mem
  exact ⟨h, is, armed, zero⟩

/-! ### The lines of a tick (R128 to R131) -/

theorem sample_once (l : Line) (raw : Bool) : l.sampledOnce (l.sample raw) := ⟨rfl, rfl⟩

theorem sampleMask_sampled (l : Line) (raw : Bool) : l.maskSampled (l.sampleMask raw) := by
  have third : (l.sample raw).changed = true ↔ raw ≠ l.level ∧ 2 ≤ l.count := by
    rw [line_changed_iff]
    show raw ≠ l.level ∧ 3 ≤ (if raw = l.level then 0 else min 3 (l.count + 1)) ↔ _
    refine and_congr_right fun other => ?_
    rw [if_neg other]
    omega
  have shown : (l.sampleMask raw).raw = raw := by
    unfold Line.sampleMask
    dsimp only
    split <;> rfl
  unfold Line.maskSampled
  rw [shown]
  by_cases changes : raw ≠ l.level ∧ 2 ≤ l.count
  · rw [if_pos changes, Line.sampleMask, if_pos (third.mpr changes)]
    exact ⟨rfl, rfl⟩
  · rw [if_neg changes, Line.sampleMask, if_neg fun change => changes (third.mp change)]
    exact sample_once l raw

theorem inputs_ticked (free : Nat) (i : Inputs) : i.ticked (i.tick free) := by
  refine ⟨sample_once .., sample_once .., sample_once .., sample_once .., fun h => ⟨?_, ?_, ?_, ?_⟩, ?_⟩
  · show (i.masks.get h).maskSampled ((Four.zipWith Line.sampleMask i.masks (bitsFrom free 4)).get h)
    rw [Four.get_zipWith]
    exact sampleMask_sampled ..
  · show (i.posReady.get h).sampledOnce ((Four.zipWith Line.sample i.posReady (bitsFrom free 8)).get h)
    rw [Four.get_zipWith]
    exact sample_once ..
  · show (i.ramTop.get h).sampledOnce ((Four.zipWith Line.sample i.ramTop (bitsFrom free 12)).get h)
    rw [Four.get_zipWith]
    exact sample_once ..
  · show (i.toolPresent.get h).sampledOnce ((Four.zipWith Line.sample i.toolPresent (bitsFrom free 16)).get h)
    rw [Four.get_zipWith]
    exact sample_once ..
  · show i.pair.tick = _
    cases i.pair <;> rfl

/-! ### The period -/

theorem toolBus_idled (b : ToolBus) : b.idled =
    { b with idle := if b.transaction.isNone then min 2000 (b.idle + 1) else b.idle } := by
  unfold ToolBus.idled
  split
  · next free => rw [free]; rfl
  · next line => rw [if_neg (by rw [line]; exact Bool.false_ne_true)]

theorem filtered_spec (free : Nat) (s : State) (h : HeadId) : filtered free s h = { s.sense h with
    pinA := (filtered free s h).pinA
    pinB := (filtered free s h).pinB
    seenA := decide ((filtered free s h).pinA ≠ (s.sense h).levelA) && !(s.sense h).seenA
    seenB := decide ((filtered free s h).pinB ≠ (s.sense h).levelB) && !(s.sense h).seenB } :=
  (filter_spec (s.sense h) _ _).1

/-- The edges queued are those the filters have accepted, whatever else joins the queue. -/
theorem edges_accepted {free : Nat} {s t : State} (senses : ∀ h, t.sense h = filtered free s h)
    (queued : ∀ h edge done, .acceptedEdge h edge done ∈ t.pending ↔ .acceptedEdge h edge done ∈ s.edges free) (h : HeadId)
    (edge : EncoderEdge) : (∃ done, Instr.acceptedEdge h edge done ∈ t.pending) ↔
      ((edge = .lineA ∨ edge = .both) ↔ (t.sense h).pinA ≠ (s.sense h).levelA ∧ (s.sense h).seenA = true) ∧
      ((edge = .lineB ∨ edge = .both) ↔ (t.sense h).pinB ≠ (s.sense h).levelB ∧ (s.sense h).seenB = true) := by
  rw [senses]
  refine Iff.trans ?_ (filter_edge (s.sense h) ((bitsFrom free 0).get h) ((bitsFrom free 4).get h) edge)
  simp only [queued, mem_edges, Instr.acceptedEdge.injEq]
  constructor
  · rintro ⟨_, h', edge', accepts, rfl, rfl, _⟩
    exact accepts
  · exact fun accepts => ⟨_, h, edge, accepts, rfl, rfl, rfl⟩

theorem period_quiet {encoders lines : Nat} {s : State} (quiet : s.micros + 1 < 1000) :
    ∃ n, (∀ h, Four.get n h = filtered encoders s h) ∧ period encoders lines s = { s with
      senses := n, toolBus := s.toolBus.idled, pending := s.edges encoders, choices := s.choices + 2
      micros := s.micros + 1 } := by
  obtain ⟨n, senses, is⟩ := filterPeriod_spec encoders s
  exact ⟨n, senses, by rw [period, if_pos quiet, is]⟩

/-- The block after the tick of a period, but for its queue. -/
def ticked (lines : Nat) (n : Four Sense) (s : State) : State :=
  { s with
    senses := n, toolBus := s.toolBus.idled, choices := s.choices + 2, micros := 0, heads := s.heads.map Head.tick
    reader := s.reader.tick, inputs := s.inputs.tick lines }

theorem period_ticks {encoders lines : Nat} {s : State} (ticks : ¬s.micros + 1 < 1000) :
    ∃ n, (∀ h, Four.get n h = filtered encoders s h) ∧ period encoders lines s = { ticked lines n s with
      pending := (ticked lines n s).guardsFirst lines ++ s.edges encoders ++ (ticked lines n s).timedScans } := by
  obtain ⟨n, senses, is⟩ := filterPeriod_spec encoders s
  exact ⟨n, senses, by rw [period, if_neg ticks, is]; rfl⟩

theorem reader_tick (r : Reader) : r.tick =
    { r with poll := if r.state = .waiting then r.poll.map (· - 1) else r.poll } := by
  unfold Reader.tick
  split <;> rfl

/-- A period with no tick. -/
theorem period_passed_quiet {encoders lines : Nat} {s : State} (ticks : ¬1000 ≤ s.micros + 1) :
    periodPassed s (period encoders lines s) := by
  obtain ⟨n, senses, is⟩ := period_quiet (encoders := encoders) (lines := lines) (s := s) (by omega)
  have sense : ∀ h, (period encoders lines s).sense h = filtered encoders s h := fun h => by rw [is]; exact senses h
  have pending : (period encoders lines s).pending = s.edges encoders := by rw [is]
  have apart : ∀ {i : Instr}, (∀ h edge done, i ≠ .acceptedEdge h edge done) → i ∉ (period encoders lines s).pending := by
    intro i other mem
    rw [pending, mem_edges] at mem
    obtain ⟨h, edge, _, same⟩ := mem
    exact other _ _ _ same
  unfold periodPassed
  simp only [ticks, false_and, if_false, iff_false]
  refine ⟨by rw [is], fun h => by rw [sense]; exact filtered_spec .., edges_accepted sense fun h edge done => by rw [pending],
    fun h => apart nofun, fun h => apart nofun, fun h => by rw [is]; rfl, by rw [is], by rw [is], ?_,
    by rw [is]; exact ⟨rfl, rfl, rfl, rfl, rfl, rfl, rfl, rfl⟩⟩
  rw [is]
  exact toolBus_idled _

/-- A period that is a tick of the timebase. -/
theorem period_passed_ticks {encoders lines : Nat} {s : State} (ticks : 1000 ≤ s.micros + 1) :
    periodPassed s (period encoders lines s) := by
  obtain ⟨n, senses, is⟩ := period_ticks (encoders := encoders) (lines := lines) (s := s) (by omega)
  have sense : ∀ h, (period encoders lines s).sense h = filtered encoders s h := fun h => by rw [is]; exact senses h
  have head : ∀ h, (period encoders lines s).head h = (s.head h).tick := fun h => by rw [is]; exact Four.get_map ..
  have pending : ∀ i, i ∈ (period encoders lines s).pending ↔
      i ∈ (ticked lines n s).guardsFirst lines ∨ i ∈ s.edges encoders ∨ i ∈ (ticked lines n s).timedScans := fun i => by
    rw [is]
    simp only [List.mem_append, or_assoc]
  have wanted : ∀ h, scanWanted (period encoders lines s) h ↔ scanWanted (ticked lines n s) h := fun h => by rw [is]; rfl
  have heads : ∀ h, (period encoders lines s).head h = (ticked lines n s).head h := fun h => by rw [is]; rfl
  have noGuard : ∀ {i : Instr}, (∀ h, i ≠ .strokeGuardExpire h) → i ∉ (ticked lines n s).guardsFirst lines := by
    intro i other mem
    obtain ⟨h, same, _⟩ := of_mem_guardsFirst mem
    exact other h same
  have noEdge : ∀ {i : Instr}, (∀ h edge done, i ≠ .acceptedEdge h edge done) → i ∉ s.edges encoders := by
    intro i other mem
    obtain ⟨h, edge, _, same⟩ := mem_edges.mp mem
    exact other _ _ _ same
  have noScan : ∀ {i : Instr}, (∀ h, i ≠ .timedScanTick h) → i ∉ (ticked lines n s).timedScans := by
    intro i other mem
    obtain ⟨h, _, same⟩ := mem_timedScans.mp mem
    exact other h same
  unfold periodPassed
  simp only [ticks, true_and, if_true]
  refine ⟨by rw [is]; rfl, fun h => by rw [sense]; exact filtered_spec .., edges_accepted sense fun h edge done => ?_,
    fun h => ?_, fun h mem => ?_, fun h => by rw [head]; rfl, by rw [is]; exact reader_tick _, by rw [is]; exact inputs_ticked .., ?_,
    by rw [is]; exact ⟨rfl, rfl, rfl, rfl, rfl, rfl, rfl, rfl⟩⟩
  · rw [pending]
    simp only [noGuard (i := .acceptedEdge h edge done) nofun, noScan (i := .acceptedEdge h edge done) nofun, false_or, or_false]
  · rw [pending]
    simp only [noGuard (i := .timedScanTick h) nofun, noEdge (i := .timedScanTick h) nofun, false_or, mem_timedScans,
      Instr.timedScanTick.injEq, exists_eq_right', wanted]
  · rcases (pending _).mp mem with guard | edge | scan
    · obtain ⟨h', same, armed, zero⟩ := of_mem_guardsFirst guard
      obtain rfl := Instr.strokeGuardExpire.inj same
      rw [heads]
      exact ⟨armed, zero⟩
    · exact absurd edge (noEdge nofun)
    · exact absurd scan (noScan nofun)
  · rw [is]
    exact toolBus_idled _

theorem period_passed (encoders lines : Nat) (s : State) : periodPassed s (period encoders lines s) := by
  by_cases ticks : 1000 ≤ s.micros + 1
  · exact period_passed_ticks ticks
  · exact period_passed_quiet ticks

/-- Settles O1. -/
theorem stepRunsTheFrontCommand : Obligations.StepRunsTheFrontCommand := by
  refine ⟨fun c rest s waiting => by simp only [step, waiting], fun s idle => ⟨fun i more due => ?_, fun due => ?_⟩, due_duesOf⟩
  · simp only [step, idle, idleStep, due]
    rfl
  · exact ⟨period (Config.freeChoice s.choices) (Config.freeChoice (s.choices + 1)) s, by simp only [step, idle, idleStep, due],
      period_passed _ _ s⟩

end Sys2Proof.Machine
